-- ==== Sys2Proof/Word.lean ====
section
/-! DEFINITION. The value types of the spec (spec/00_scope.md R10), as bit vectors: only what the spec
adds, shifts, masks or reads as a word. -/

namespace Sys2Proof

/-- `u32` and `i32` (R10): the same 32 bits; signed operations say so by name. -/
abbrev Word := BitVec 32

/-- `u16` (R10): masks, `target`, `period`, `aux_duty`. -/
abbrev Half := BitVec 16

/-- `u8` (R10): thresholds, phase, `duty_cap`. -/
abbrev Byte := BitVec 8

/-- A raw sample, `SAMPLE_BITS` = 10 bits (R6, R15). -/
abbrev Sample := BitVec 10

/-- A 4-bit digit code or opcode (R81, R83, R84). -/
abbrev Nibble := BitVec 4

/-- One sample pair: the feedback sample, then the reference sample (R102). -/
abbrev SamplePair := Sample × Sample

end Sys2Proof
end

