-- ==== Sys2Proof/Config.lean ====
section
/-! DEFINITION. The implementation parameters (spec/00_scope.md R6) and the values the spec leaves free.

A `Config` is an argument of the model: it is a field of the state that no operation writes (log entry 1). -/

namespace Sys2Proof

/-- `D_MODE` (R6, R108): the derivative term absent, error minus previous error, or the reverse. -/
inductive DerivativeMode where
  | none
  | add
  | sub
  deriving DecidableEq, Repr

/-- `D_DIR` (R6, R108): the direction of the derivative shift. -/
inductive ShiftDirection where
  | shl
  | shr
  deriving DecidableEq, Repr

/-- `TRANSPORT_BYTE_ORDER` (spec/20_memory.md R63): the OPEN parameter of the host transport. -/
inductive ByteOrder where
  | littleEndian
  | bigEndian
  deriving DecidableEq, Repr

/-- The parameters of R6, one field each, by the spec's names. `SAMPLE_BITS` is fixed at 10 and is the
width of `Sample`. -/
structure Config where
  /-- `K`: the shift of both IIR filters. -/
  k : Nat
  /-- `MAX_TARGET`: the ceiling of `target`. -/
  maxTarget : Half
  /-- `I_MIN`: the lower integral bound, before the scaling by `2^K`. -/
  iMin : Int
  /-- `I_MAX`: the upper integral bound, before the scaling by `2^K`. -/
  iMax : Int
  /-- `P_SHIFT`: the proportional gain shift, left. -/
  pShift : Nat
  /-- `I_SHIFT`: the integral gain shift, right. -/
  iShift : Nat
  /-- `D_MODE`. -/
  dMode : DerivativeMode
  /-- `D_DIR`. -/
  dDir : ShiftDirection
  /-- `D_SHIFT`. -/
  dShift : Nat
  /-- `MD_A`. -/
  mdA : Nat
  /-- `MD_B`. -/
  mdB : Nat
  /-- `MD_C`. -/
  mdC : Nat
  /-- `CT_S1`. -/
  ctS1 : Nat
  /-- `CT_S2`. -/
  ctS2 : Nat
  /-- `CT_S3`, or `ABSENT`. -/
  ctS3 : Option Nat
  /-- `PERIOD_DEFAULT`: the reset value of `period`. -/
  periodDefault : Half
  /-- `HAS_TUNE`: whether opcode 4 is built in. -/
  hasTune : Bool
  /-- `DIGIT_MASK[1..12]`, entry 1 first (spec/42_fade.md R171). -/
  digitMasks : List Half
  /-- `TS_SHIFT`: which bits of the timestamp feed the dither counter. -/
  tsShift : Nat
  /-- `DITHER_ROT`: the left rotation of the dither counter. -/
  ditherRot : Nat
  /-- `TS_BITS`: the width of the timestamp. -/
  tsBits : Nat
  /-- `GAP_HOLD`: the least time the all-off mask is held, in time units. -/
  gapHold : Nat
  /-- `WDT_TIMEOUT`: the watchdog timeout, in time units. -/
  wdtTimeout : Nat
  /-- `TRANSPORT_BYTE_ORDER`: no operation of the block reads it (R63). -/
  transportByteOrder : ByteOrder
  deriving DecidableEq, Repr

/-- The reference column of R6. DESIGN CHOICE (log entry 2) for what R6 leaves OPEN: `GAP_HOLD`,
`WDT_TIMEOUT`, the byte order. The digit masks are R171's placeholder, written as its twelve values. -/
def Config.reference : Config where
  k := 2
  maxTarget := 200
  iMin := -100
  iMax := 400
  pShift := 1
  iShift := 4
  dMode := .none
  dDir := .shr
  dShift := 0
  mdA := 2
  mdB := 6
  mdC := 7
  ctS1 := 7
  ctS2 := 11
  ctS3 := some 13
  periodDefault := 240
  hasTune := true
  digitMasks :=
    [0x0001, 0x0002, 0x0004, 0x0008, 0x0010, 0x0020, 0x0040, 0x0080, 0x0100, 0x0200, 0x0400, 0x0800]
  tsShift := 0
  ditherRot := 4
  tsBits := 32
  gapHold := 1
  wdtTimeout := 16
  transportByteOrder := .littleEndian

/-- FREE VALUE (log entry 10): which of the sample pairs produced since the previous SAMPLE the next one
sees after a lost trigger (spec/60_exceptions.md R243, 93_implementation_defined.md row 10), applied to
the state's `draws`. Nothing constrains it; it is reduced modulo the number of pairs. -/
opaque Config.lostTriggerChoice : Nat → Nat

/-- FREE VALUE (log entry 10): the pair a pending interrupt is served on when the sampler has recorded
none, which no run reaches; applied to the state's `draws`. -/
opaque Config.unrecordedPair : Nat → SamplePair

/-- FREE VALUE (log entry 12): the switch on-time of a period whose compare value lies above the period
(spec/70_reset_and_hazards.md R283, 93_implementation_defined.md row 14), applied to the state's `draws`. -/
opaque Config.oversizedOnTime : Nat → Half

end Sys2Proof
end

