-- ==== Sys2Proof/Syntax.lean ====
section
/-! DEFINITION. The instructions: one constructor per row of spec/opcode_table.json, in the table's order,
each with the operands the row's rule gives it. -/

namespace Sys2Proof

/-- The operations of the block. The command rows (spec/30_encoding.md R81) are what a POLL applies; the
event rows (R90) are what the input events fire. The eleven IGNORED rows are one constructor each;
`ignored4` is the twelfth outcome IGNORED of R81, opcode 4 where `HAS_TUNE` is false (log entry 7). -/
inductive Instr where
  /-- SETTARGET, opcode 1 (R82, R205). -/
  | settarget (value : Half)
  /-- DIGIT, opcode 2 (R83, R206). -/
  | digit (code : Nibble)
  /-- FADECFG, opcode 3 (R84, R207). -/
  | fadecfg (codeA codeB : Nibble) (t0 t1 : Byte)
  /-- TUNE, opcode 4 where `HAS_TUNE` (R85, R208). -/
  | tune (per maxd : Byte)
  /-- AUX, opcode 5 (R82, R209). -/
  | aux (value : Half)
  /-- IGNORED, opcode 0 (R210). -/
  | ignored0
  /-- IGNORED, opcode 4 where `HAS_TUNE` is false (R81, R210). -/
  | ignored4
  /-- IGNORED, opcode 6 (R210). -/
  | ignored6
  /-- IGNORED, opcode 7 (R210). -/
  | ignored7
  /-- IGNORED, opcode 8 (R210). -/
  | ignored8
  /-- IGNORED, opcode 9 (R210). -/
  | ignored9
  /-- IGNORED, opcode 10 (R210). -/
  | ignored10
  /-- IGNORED, opcode 11 (R210). -/
  | ignored11
  /-- IGNORED, opcode 12 (R210). -/
  | ignored12
  /-- IGNORED, opcode 13 (R210). -/
  | ignored13
  /-- IGNORED, opcode 14 (R210). -/
  | ignored14
  /-- IGNORED, opcode 15 (R210). -/
  | ignored15
  /-- SAMPLE, event kind 0 (spec/40_control_law.md R100). -/
  | sample (fbRaw refRaw : Sample)
  /-- POLL, event kind 1 (spec/43_commands.md R200). -/
  | poll (fresh : Bool) (word : Word)
  /-- FADE, event kind 2 (spec/42_fade.md R175); `ts` is a number of `TS_BITS` bits. -/
  | fade (ts : Nat)
  /-- RESET, event kind 3 (spec/70_reset_and_hazards.md R270). -/
  | reset
  deriving DecidableEq, Repr

/-- The instruction is one of the command rows (R81), not an event (R90). -/
def Instr.isCommand : Instr → Bool
  | .settarget _ => true
  | .digit _ => true
  | .fadecfg _ _ _ _ => true
  | .tune _ _ => true
  | .aux _ => true
  | .ignored0 => true
  | .ignored4 => true
  | .ignored6 => true
  | .ignored7 => true
  | .ignored8 => true
  | .ignored9 => true
  | .ignored10 => true
  | .ignored11 => true
  | .ignored12 => true
  | .ignored13 => true
  | .ignored14 => true
  | .ignored15 => true
  | .sample _ _ => false
  | .poll _ _ => false
  | .fade _ => false
  | .reset => false

/-- The instruction is one of the IGNORED outcomes (R81, R210). -/
def Instr.isIgnored : Instr → Bool
  | .settarget _ => false
  | .digit _ => false
  | .fadecfg _ _ _ _ => false
  | .tune _ _ => false
  | .aux _ => false
  | .ignored0 => true
  | .ignored4 => true
  | .ignored6 => true
  | .ignored7 => true
  | .ignored8 => true
  | .ignored9 => true
  | .ignored10 => true
  | .ignored11 => true
  | .ignored12 => true
  | .ignored13 => true
  | .ignored14 => true
  | .ignored15 => true
  | .sample _ _ => false
  | .poll _ _ => false
  | .fade _ => false
  | .reset => false

end Sys2Proof
end

