-- ==== Sys2Proof/WellFormed.lean ====
section
/-! DEFINITION. Which configurations the model accepts (spec/00_scope.md R7, R8 and the legal ranges of
R6), and which instructions a configuration can be given. -/

namespace Sys2Proof

/-- The mask has exactly one of its 16 bits set (R7). -/
def oneHot (m : Half) : Bool :=
  (List.range 16).any fun n => m == 1#16 <<< n

/-- R7: twelve `DIGIT_MASK` entries, distinct, each with exactly one bit set. -/
def digitMasksWf (masks : List Half) : Bool :=
  masks.length == 12 && masks.all oneHot && decide masks.Nodup

/-- R7: `K <= 6`, and every shift parameter is in 0..31 (R11: each amount that a shift uses; `DITHER_ROT`,
which is at most 7, stands in `rangesWf`). -/
def Config.shiftsWf (c : Config) : Bool :=
  c.k ≤ 6 && c.pShift ≤ 31 && c.iShift ≤ 31 && c.dShift ≤ 31 && c.mdA ≤ 31 && c.mdB ≤ 31 && c.mdC ≤ 31
    && c.ctS1 ≤ 31 && c.ctS2 ≤ 31 && (c.ctS3.all fun n => n ≤ 31) && c.tsShift ≤ 31

/-- R6: the legal ranges of `PERIOD_DEFAULT`, `TS_SHIFT`, `DITHER_ROT`, `TS_BITS`, `GAP_HOLD` and
`WDT_TIMEOUT`. -/
def Config.rangesWf (c : Config) : Bool :=
  1 ≤ c.periodDefault.toNat && c.tsShift + 8 ≤ c.tsBits && c.ditherRot ≤ 7
    && 0 < c.gapHold && 0 < c.wdtTimeout

/-- R8: `FMAX = 1023 << K`. -/
def Config.fMax (c : Config) : Nat := 1023 * 2 ^ c.k

/-- R8: `NMAX = 65535 * MAX_TARGET`. -/
def Config.nMax (c : Config) : Nat := 65535 * c.maxTarget.toNat

/-- R8: `CTMAX`, the compensated target at the multiply bound. -/
def Config.ctMax (c : Config) : Nat :=
  c.nMax / 2 ^ c.ctS1 + c.nMax / 2 ^ c.ctS2 + (match c.ctS3 with | none => 0 | some n => c.nMax / 2 ^ n)

/-- R8: `EMAX = max(FMAX, CTMAX)`. -/
def Config.eMax (c : Config) : Nat := max c.fMax c.ctMax

/-- R8: `IMAX = max(|I_MIN|, |I_MAX|) << K`. -/
def Config.iBound (c : Config) : Nat := max c.iMin.natAbs c.iMax.natAbs * 2 ^ c.k

/-- R8: `DMAX`. -/
def Config.dMax (c : Config) : Nat :=
  match c.dMode, c.dDir with
  | .none, _ => 0
  | _, .shl => 2 * c.eMax * 2 ^ c.dShift
  | _, .shr => 2 * c.eMax

/-- R8: the no-wrap condition W. -/
def Config.noWrap (c : Config) : Bool :=
  c.ctMax < 2 ^ 31 && c.eMax * 2 ^ c.pShift < 2 ^ 31 && c.iBound + c.eMax < 2 ^ 31
    && c.eMax * 2 ^ c.pShift + c.iBound + c.dMax < 2 ^ 31

/-- R7: the configuration is one the model accepts. -/
def Config.wf (c : Config) : Bool :=
  decide (c.iMin ≤ c.iMax) && c.shiftsWf && c.rangesWf && digitMasksWf c.digitMasks && c.noWrap

/-- The instruction is one that configuration `c` can be given: TUNE exists only where `HAS_TUNE` (R81),
opcode 4 is ignored only where it does not, and a timestamp has `TS_BITS` bits (R40). Every other operand
is bounded by its type. -/
def Instr.wf (c : Config) : Instr → Bool
  | .settarget _ => true
  | .digit _ => true
  | .fadecfg _ _ _ _ => true
  | .tune _ _ => c.hasTune
  | .aux _ => true
  | .ignored0 => true
  | .ignored4 => !c.hasTune
  | .ignored6 => true
  | .ignored7 => true
  | .ignored8 => true
  | .ignored9 => true
  | .ignored10 => true
  | .ignored11 => true
  | .ignored12 => true
  | .ignored13 => true
  | .ignored14 => true
  | .ignored15 => true
  | .sample _ _ => true
  | .poll _ _ => true
  | .fade ts => decide (ts < 2 ^ c.tsBits)
  | .reset => true

end Sys2Proof
end

