-- ==== Sys2Proof/Decode.lean ====
section
/-! DEFINITION. Decoding and encoding: the 32-bit command word (spec/30_encoding.md R80 to R89), and the
event word (R90 gives its kind codes; its operand layout is the model's, log entry 3). -/

namespace Sys2Proof

/-- `w[lo+len-1:lo]` (spec/00_scope.md R9): `len` bits of a command word from bit `lo` up. -/
def field (w : Word) (lo len : Nat) : BitVec len := w.extractLsb' lo len

/-- The IGNORED outcome for an opcode that names no command (R81, R87). -/
def ignoredOf (opc : Nibble) : Instr :=
  match opc.toNat with
  | 0 => .ignored0
  | 4 => .ignored4
  | 6 => .ignored6
  | 7 => .ignored7
  | 8 => .ignored8
  | 9 => .ignored9
  | 10 => .ignored10
  | 11 => .ignored11
  | 12 => .ignored12
  | 13 => .ignored13
  | 14 => .ignored14
  | _ => .ignored15

/-- `decode(w)` (R89): total, no command word is refused (R87); the argument is `HAS_TUNE`. -/
def decodeCommand (hasTune : Bool) (w : Word) : Instr :=
  if field w 0 4 = 1 then .settarget (field w 16 16)
  else if field w 0 4 = 2 then .digit (field w 16 4)
  else if field w 0 4 = 3 then .fadecfg (field w 8 4) (field w 12 4) (field w 16 8) (field w 24 8)
  else if field w 0 4 = 4 ∧ hasTune = true then .tune (field w 16 8) (field w 24 8)
  else if field w 0 4 = 5 then .aux (field w 16 16)
  else ignoredOf (field w 0 4)

/-- Why an event word names no event: each is a refusal, and safe (the block has no such event). -/
inductive EventError where
  /-- A kind code other than 0 to 3 (R90). -/
  | unknownKind
  /-- A sample operand above 1023 (R6, decision D4, 93_implementation_defined.md row 11). -/
  | sampleTooWide
  /-- A `fresh` operand other than 0 and 1 (R40: `cmd_fresh` is one bit wide). -/
  | freshNotABit
  /-- A timestamp of more than `TS_BITS` bits (R40). -/
  | timestampTooWide
  /-- Bits set above the last operand of the event's kind. -/
  | trailingBits
  deriving DecidableEq, Repr

/-- The number in bits `lo+len-1 .. lo` of an event word. -/
def eventField (w lo len : Nat) : Nat := w / 2 ^ lo % 2 ^ len

/-- Decoding an event word: kind in bits 7:0 (R90), then the operands in the order of R90: SAMPLE has
`fb_raw` in 23:8 and `ref_raw` in 39:24, POLL has `fresh` in 15:8 and `word` in 47:16, FADE has `ts` from
bit 8 up. DESIGN CHOICE (log entry 3): the layout. -/
def decodeEvent (c : Config) (w : Nat) : Except EventError Instr :=
  match eventField w 0 8 with
  | 0 =>
    if w / 2 ^ 40 ≠ 0 then .error .trailingBits
    else if 1023 < eventField w 8 16 ∨ 1023 < eventField w 24 16 then .error .sampleTooWide
    else .ok (.sample (BitVec.ofNat 10 (eventField w 8 16)) (BitVec.ofNat 10 (eventField w 24 16)))
  | 1 =>
    if w / 2 ^ 48 ≠ 0 then .error .trailingBits
    else if 1 < eventField w 8 8 then .error .freshNotABit
    else .ok (.poll (eventField w 8 8 == 1) (BitVec.ofNat 32 (eventField w 16 32)))
  | 2 => if w / 2 ^ 8 < 2 ^ c.tsBits then .ok (.fade (w / 2 ^ 8)) else .error .timestampTooWide
  | 3 => if w / 2 ^ 8 ≠ 0 then .error .trailingBits else .ok .reset
  | _ => .error .unknownKind

/-- What an instruction is encoded as: a command word, or an event word. -/
inductive Encoding where
  | command (w : Word)
  | event (w : Nat)
  deriving DecidableEq, Repr

/-- Decoding either kind of encoding, for a configuration. -/
def decode (c : Config) : Encoding → Except EventError Instr
  | .command w => .ok (decodeCommand c.hasTune w)
  | .event w => decodeEvent c w

/-- The word of an instruction (R92, with zero in every ignored bit; log entry 3 for the events). -/
def encode : Instr → Encoding
  | .settarget value => .command (BitVec.ofNat 32 (value.toNat * 2 ^ 16 + 1))
  | .digit code => .command (BitVec.ofNat 32 (code.toNat * 2 ^ 16 + 2))
  | .fadecfg codeA codeB t0 t1 =>
    .command (BitVec.ofNat 32
      (t1.toNat * 2 ^ 24 + t0.toNat * 2 ^ 16 + codeB.toNat * 2 ^ 12 + codeA.toNat * 2 ^ 8 + 3))
  | .tune per maxd => .command (BitVec.ofNat 32 (maxd.toNat * 2 ^ 24 + per.toNat * 2 ^ 16 + 4))
  | .aux value => .command (BitVec.ofNat 32 (value.toNat * 2 ^ 16 + 5))
  | .ignored0 => .command 0x00000000
  | .ignored4 => .command 0x00000004
  | .ignored6 => .command 0x00000006
  | .ignored7 => .command 0x00000007
  | .ignored8 => .command 0x00000008
  | .ignored9 => .command 0x00000009
  | .ignored10 => .command 0x0000000A
  | .ignored11 => .command 0x0000000B
  | .ignored12 => .command 0x0000000C
  | .ignored13 => .command 0x0000000D
  | .ignored14 => .command 0x0000000E
  | .ignored15 => .command 0x0000000F
  | .sample fbRaw refRaw => .event (fbRaw.toNat * 2 ^ 8 + refRaw.toNat * 2 ^ 24)
  | .poll fresh word => .event (1 + fresh.toNat * 2 ^ 8 + word.toNat * 2 ^ 16)
  | .fade ts => .event (2 + ts * 2 ^ 8)
  | .reset => .event 3

/-- The host's probe names a table row by a width and a number. A row of one byte or less whose number
is a kind code is an event row (R90); every other is a command row (log entry 4). -/
def isEventRow (nbits w : Nat) : Bool := nbits ≤ 8 && w % 2 ^ nbits < 4

/-- The encoding that the host's probe stands for, every bit above `nbits` zero. -/
def tableEncoding (nbits w : Nat) : Encoding :=
  if isEventRow nbits w then .event (w % 2 ^ nbits) else .command (BitVec.ofNat 32 (w % 2 ^ nbits))

/-- The instruction the decoder reads from a table row's bits, under the reference configuration
(log entry 4). -/
def decodeTableWord (nbits w : Nat) : Option Instr :=
  match decode Config.reference (tableEncoding nbits w) with
  | .ok i => some i
  | .error _ => none

end Sys2Proof
end

