-- ==== Sys2Proof/Machine/State.lean ====
section
/-! DEFINITION. The machine's state, as plain data: every register of spec/10_state.md, the sequencing
state between micro-steps, the environment's side, and the state after reset. -/

namespace Sys2Proof.Machine

open Sys2Proof

/-- `main_phase` (R44): the next step of the polling context. -/
inductive Phase where
  | poll
  | fade
  deriving DecidableEq, Repr

/-- How far the boot sequence of spec/70_reset_and_hazards.md R275 has got (log entry 8). -/
inductive BootStage where
  /-- Step 1 is done: every register holds its reset value. -/
  | registersReset
  /-- Step 2 is done: the platform is initialised. -/
  | platformReady
  /-- Step 3 is done: the watchdog is armed. -/
  | watchdogArmed
  /-- Step 4 is done: `startSampling` has been issued. -/
  | samplingStarted
  /-- Steps 5 and 6 are done: the interrupt is enabled and the polling context runs. -/
  | running
  deriving DecidableEq, Repr

/-- How far a SAMPLE in progress has got (spec/60_exceptions.md R243, R244; log entry 9). -/
inductive ControlProgress where
  /-- No SAMPLE runs. -/
  | idle
  /-- The interrupt has been taken, on this pair. -/
  | running (fbRaw refRaw : Sample)
  /-- The registers and the duty are written, the watchdog is not yet petted. -/
  | dutyWritten
  deriving DecidableEq, Repr

/-- How far the current step of the polling context has got (spec/60_exceptions.md R246; the micro-steps
of spec/20_memory.md R70 and the hold of spec/42_fade.md R175). -/
inductive PollingProgress where
  /-- Between two polling steps. -/
  | between
  /-- Inside opcode 4: `period` is written, `duty_cap` is still to take this value (R208). -/
  | periodWritten (maxd : Byte)
  /-- POLL micro-step 1 is done (R200). -/
  | applied
  /-- POLL micro-step 2 is done, with this value of `filtered_feedback` read (R212). -/
  | feedbackRead (fb : Word)
  /-- FADE holds the all-off mask; this mask comes next (R175, R176). -/
  | holding (m : Half)
  deriving DecidableEq, Repr

/-- One output event (spec/00_scope.md R13, 10_state.md R40). -/
inductive Output where
  | switchDuty (v : Half)
  | switchPeriod (v : Half)
  | digitBus (m : Half)
  /-- `Hold(GAP_HOLD)` (R175): at least this many time units pass before the next digit-bus write. -/
  | gapHold (atLeast : Nat)
  | auxDuty (v : Half)
  | statusWord (w : Word)
  | sampleStart
  | wdtPet
  deriving DecidableEq, Repr

/-- One thing that the outside does next (spec/30_encoding.md R90 to R93; log entries 5 and 18). -/
inductive Input where
  /-- An event statement of R93, as its event word. -/
  | event (w : Nat)
  /-- `POLL.apply`: micro-step 1 of a POLL, with the operands of the POLL event. -/
  | pollApply (fresh : Bool) (word : Word)
  /-- `POLL.apply.period`: the first of opcode 4's two writes. -/
  | pollApplyPeriod (word : Word)
  /-- `POLL.apply.cap`: the second. -/
  | pollApplyCap
  /-- `POLL.rdfb`: micro-step 2. -/
  | pollRdfb
  /-- `POLL.rdref`: micro-step 3. -/
  | pollRdref
  /-- A FADE up to its hold (R175; log entry 13). -/
  | fadeBegin (ts : Nat)
  /-- The rest of that FADE. -/
  | fadeEnd
  /-- A conversion completes with this pair: `sample_ready` (R40, R242). -/
  | conversion (fbRaw refRaw : Sample)
  /-- The switching timer reaches a period boundary (spec/40_control_law.md R101). -/
  | periodBoundary
  /-- One unit of the watchdog's clock passes (spec/60_exceptions.md R250). -/
  | tick
  /-- The core does one micro-step of its own work, if it has any (log entry 18). -/
  | proceed
  deriving DecidableEq, Repr

/-- ControllerState (R20, R23 to R30). -/
structure ControllerState where
  /-- `target` (R23). -/
  target : Half
  /-- `filtered_feedback` (R24). -/
  filteredFeedback : Word
  /-- `filtered_reference` (R25). -/
  filteredReference : Word
  /-- `integral` (R26). -/
  integral : Word
  /-- `compensated_target` (R27). -/
  compensatedTarget : Word
  /-- `max_duty` (R28). -/
  maxDuty : Word
  /-- `duty_command` (R29). -/
  dutyCommand : Word
  /-- `previous_error` (R30). -/
  previousError : Word
  deriving DecidableEq, Repr

/-- FadeState (R20, R34 to R37). -/
structure FadeState where
  /-- `mask_a` (R34). -/
  maskA : Half
  /-- `mask_b` (R34). -/
  maskB : Half
  /-- `threshold_0` (R35). -/
  threshold0 : Byte
  /-- `threshold_1` (R35). -/
  threshold1 : Byte
  /-- `fade_enabled` (R36). -/
  fadeEnabled : Bool
  /-- `last_applied_mask` (R37). -/
  lastAppliedMask : Half
  deriving DecidableEq, Repr

/-- The whole machine. The fields from `cfg` to `boot` are the block's; `results`, `sincePet`,
`switchCompare` and `switchActive` are the environment's side of its ports; `inbox`, `outputs` and
`draws` are the model's own. -/
structure State where
  /-- The parameters (R6), which no operation writes. -/
  cfg : Config
  controller : ControllerState
  fade : FadeState
  /-- `period` (R31), which is also the level of the `switch_period` port (R40). -/
  period : Half
  /-- `duty_cap` (R32). -/
  dutyCap : Byte
  /-- `aux_duty` (R33), which is also the level of the `aux_duty` port (R40). -/
  auxDuty : Half
  /-- `out_mask` (R38). -/
  outMask : Half
  /-- `status` (R39). -/
  status : Word
  /-- `sample_pending` (R43). -/
  samplePending : Bool
  /-- `main_phase` (R44). -/
  mainPhase : Phase
  /-- The polling context's progress (R246). -/
  polling : PollingProgress
  /-- The control context's progress (R243). -/
  control : ControlProgress
  /-- The boot sequence's progress (R275). -/
  boot : BootStage
  /-- The pairs the sampler has produced since the previous SAMPLE (R243), oldest first. -/
  results : List SamplePair
  /-- Clock units since the last watchdog pet, or since arming (R250). -/
  sincePet : Nat
  /-- The timer's buffered compare register, which `switch_duty` writes (R101). -/
  switchCompare : Half
  /-- The compare value in force for the current period (R101, R280). -/
  switchActive : Half
  /-- The inputs still to come, oldest first. -/
  inbox : List Input
  /-- The output events so far, oldest first (R13). -/
  outputs : List Output
  /-- The counter that free values are applied to. -/
  draws : Nat
  deriving DecidableEq, Repr

/-- No fault exists: the block raises no exception and has no stop state (spec/60_exceptions.md R240,
93_implementation_defined.md). -/
inductive Fault where
  deriving DecidableEq, Repr

/-- Why a step has no meaning. Each is safe: the model stops where the spec refuses the input. -/
inductive Refusal where
  /-- Raised by `exec` alone, for an instruction without a meaning: none is left. Safe. -/
  | notModelled (mnemonic : String)
  /-- Raised by `step`: the configuration breaks spec/00_scope.md R7. Safe. -/
  | badConfiguration
  /-- Raised by `step`: the event word names no event (R90, R40, decision D4). Safe. -/
  | badEvent (e : EventError)
  /-- Raised by POLL, FADE and their micro-steps: the input is not the polling context's next one
  (spec/30_encoding.md R91, 10_state.md R44). Safe. -/
  | outOfTurn
  /-- Raised by the micro-step `POLL.apply.period` on a word that is no TUNE (R93). Safe. -/
  | notTune
  /-- Raised where an event stands in place of a command, which no decoded command word does (R202).
  Safe. -/
  | notACommand
  deriving DecidableEq, Repr

/-- ControllerState after RESET (R47). -/
def ControllerState.zero : ControllerState where
  target := 0
  filteredFeedback := 0
  filteredReference := 0
  integral := 0
  compensatedTarget := 0
  maxDuty := 0
  dutyCommand := 0
  previousError := 0

/-- FadeState after RESET (R47). -/
def FadeState.allOff : FadeState where
  maskA := 0
  maskB := 0
  threshold0 := 0
  threshold1 := 0
  fadeEnabled := false
  lastAppliedMask := 0

/-- The output events of RESET, in order (R270, 95_test_vectors.md V14). -/
def resetOutputs (c : Config) : List Output :=
  [.switchDuty 0, .switchPeriod c.periodDefault, .digitBus 0, .auxDuty 0, .statusWord 0]

/-- The machine right after a power-up RESET of a block with configuration `c` (R47, R270): boot step 1 is
done, nothing is in the inbox. The fields that are not the spec's registers: log entries 10, 11, 12. -/
def State.resetOf (c : Config) : State where
  cfg := c
  controller := ControllerState.zero
  fade := FadeState.allOff
  period := c.periodDefault
  dutyCap := 0xFF
  auxDuty := 0
  outMask := 0
  status := 0
  samplePending := false
  mainPhase := .poll
  polling := .between
  control := .idle
  boot := .registersReset
  results := []
  sincePet := 0
  switchCompare := 0
  switchActive := 0
  inbox := []
  outputs := resetOutputs c
  draws := 0

/-- The machine right after reset, with the reference configuration (log entry 2). -/
def State.reset : State := State.resetOf Config.reference

end Sys2Proof.Machine
end

