-- ==== Sys2Proof/Machine/Flags.lean ====
section
/-! DEFINITION. The block has no condition flags (spec/10_state.md R22). What stands in their place are
the conditions on the state that decide what may run next. -/

namespace Sys2Proof.Machine

/-- The conversion interrupt is enabled from the end of boot until the next RESET (R242, R272, R275). -/
def interruptEnabled (s : State) : Bool := s.boot == .running

/-- A conversion that completes now would set `sample_pending`: the interrupt is enabled, and no trigger
is pending or being serviced (R243, R272). -/
def triggerRecognised (s : State) : Bool :=
  interruptEnabled s && !s.samplePending && s.control == .idle

/-- SAMPLE can start: it is enabled and not already running (R243, R247). -/
def sampleMayStart (s : State) : Bool := interruptEnabled s && s.control == .idle

/-- The watchdog is armed from boot step 3 on (R249, R275). -/
def watchdogArmed (s : State) : Bool :=
  match s.boot with
  | .registersReset => false
  | .platformReady => false
  | .watchdogArmed => true
  | .samplingStarted => true
  | .running => true

/-- The polling context may take a step: boot is over and no SAMPLE runs (R69, R272, R275). -/
def pollingMayRun (s : State) : Bool := s.boot == .running && s.control == .idle

/-- A POLL may start: it is the polling context's turn for one (R44, R91, R200). -/
def pollTurn (s : State) : Bool :=
  pollingMayRun s && s.mainPhase == .poll && s.polling == .between

/-- A FADE may start (R44, R91, R175). -/
def fadeTurn (s : State) : Bool :=
  pollingMayRun s && s.mainPhase == .fade && s.polling == .between

end Sys2Proof.Machine
end

