-- ==== Sys2Proof/Machine/Operands.lean ====
section
/-! DEFINITION. Operands: the pseudocode's primitives (spec/00_scope.md R10 to R12) and the pure functions
that turn an operand into the value an operation uses. -/

namespace Sys2Proof.Machine

open Sys2Proof

/-- `x >>a n` (R11): floor of the signed value over `2^n`. -/
def sar (x : Word) (n : Nat) : Word := x.sshiftRight n

/-- `x >>u n` (R11). -/
def shr (x : Word) (n : Nat) : Word := x >>> n

/-- `x << n` (R11). -/
def shl (x : Word) (n : Nat) : Word := x <<< n

/-- `zext_32` (R10). -/
def zext32 {n : Nat} (x : BitVec n) : Word := x.setWidth 32

/-- `clamp(x, lo, hi)` on `i32` (R12). -/
def clamp (x lo hi : Word) : Word := if x.slt lo then lo else if hi.slt x then hi else x

/-- `min` on `u16` (R12, R205). -/
def minHalf (x y : Half) : Half := if x.ule y then x else y

/-- `min` on `u32` (R12, R142). -/
def minWord (x y : Word) : Word := if x.ule y then x else y

/-- `rotl8(c, r)` for `r` in 0..7 (R11). -/
def rotl8 (c : Byte) (r : Nat) : Byte := c.rotateLeft r

/-- `I_MIN << K` and `I_MAX << K` as `i32` (spec/40_control_law.md R107). -/
def integralBound (c : Config) (bound : Int) : Word := shl (BitVec.ofInt 32 bound) c.k

/-- A filtered value brought back to raw scale: post-shift (R15, R141, R211). -/
def postShift (c : Config) (f : Word) : Word := sar f c.k

/-- `DigitMask(code)` (spec/42_fade.md R170): the table for 1 to 12, all-off for 0 and for 13 to 15. -/
def digitMask (c : Config) (code : Nibble) : Half :=
  if code = 0 then 0
  else if code.toNat ≤ 12 then c.digitMasks.getD (code.toNat - 1) 0
  else 0

/-- `Phase(ts)` (R172): eight bits of the timestamp, rotated. -/
def phase (c : Config) (ts : Nat) : Byte := rotl8 (BitVec.ofNat 8 (ts / 2 ^ c.tsShift)) c.ditherRot

/-- `FadeEval(phase)` (R173). -/
def fadeEval (f : FadeState) (p : Byte) : Half :=
  if f.fadeEnabled = false then f.maskA
  else if p.ult f.threshold0 then f.maskA
  else if p.ult f.threshold1 then f.maskB
  else 0

/-- `StatusWord(fb, ref)` (spec/43_commands.md R211): reference in 31:22, feedback in 21:12, zero below. -/
def statusWord (c : Config) (fb ref : Word) : Word :=
  (postShift c ref).extractLsb' 0 10 ++ (postShift c fb).extractLsb' 0 10 ++ (0 : BitVec 12)

end Sys2Proof.Machine
end

