-- ==== Sys2Proof/Machine/Ops.lean ====
section
/-! DEFINITION. The shared operations on the state: ports, taking the interrupt and returning from it,
RESET, boot. The block has no addressable memory (spec/20_memory.md R60), so none is here. -/

namespace Sys2Proof.Machine

open Sys2Proof

/-- An outcome of this machine. -/
abbrev Result := Host.Outcome State Fault Refusal

/-- `f` after a next state; a fault or a refusal stands. -/
def andThen (r : Result) (f : State → Result) : Result :=
  match r with
  | .next s => f s
  | .fault e => .fault e
  | .refused e => .refused e

/-- The state with these inputs still to come. -/
def setInbox (inputs : List Input) (s : State) : State := { s with inbox := inputs }

/-- The state with the polling context's progress set (R246). -/
def setPolling (p : PollingProgress) (s : State) : State := { s with polling := p }

/-- `PortOut`s, in order (spec/00_scope.md R13). -/
def emit (os : List Output) (s : State) : State := { s with outputs := s.outputs ++ os }

/-- The pair a pending interrupt is served on (R242, R243): the one pair produced since the previous
SAMPLE, or after a lost trigger any of them, by a free value (log entry 10). -/
def servedPair (s : State) : SamplePair :=
  match s.results with
  | [] => Config.unrecordedPair s.draws
  | [p] => p
  | p :: q :: ps =>
    (p :: q :: ps).getD (Config.lostTriggerChoice s.draws % (ps.length + 2)) (Config.unrecordedPair s.draws)

/-- Taking the control interrupt on a pair (R246): no block register changes but `sample_pending`; the
polling context's progress is kept. -/
def takeInterrupt (fbRaw refRaw : Sample) (s : State) : State :=
  { s with samplePending := false, control := .running fbRaw refRaw, results := [] }

/-- The end of SAMPLE (R112, R247): the watchdog is petted and the polling context resumes where it was. -/
def returnFromInterrupt (s : State) : State :=
  { s with outputs := s.outputs ++ [.wdtPet], sincePet := 0, control := .idle }

/-- RESET (R270, R271): every register takes its reset value, whatever was in progress is abandoned, and
the boot sequence begins. The configuration, the inputs still to come and the output events so far are
not registers of the block. -/
def resetOperation (s : State) : State :=
  { State.resetOf s.cfg with
    inbox := s.inbox, outputs := s.outputs ++ resetOutputs s.cfg, draws := s.draws }

/-- One step of the boot sequence (R275). -/
def bootStep (s : State) : State :=
  match s.boot with
  | .registersReset => { s with boot := .platformReady }
  | .platformReady => { s with boot := .watchdogArmed, sincePet := 0 }
  | .watchdogArmed => { s with boot := .samplingStarted, outputs := s.outputs ++ [.sampleStart] }
  | .samplingStarted => { s with boot := .running }
  | .running => s

/-- The level of the `switch_period` port (R40). -/
def switchPeriodPort (s : State) : Half := s.period

/-- The level of the `aux_duty` port (R40). -/
def auxDutyPort (s : State) : Half := s.auxDuty

/-- The switch on-time of the current period (R101): the compare in force, or a free value where it lies
above the period (R283, N9; log entry 12). -/
def switchOnTime (s : State) : Half :=
  if s.switchActive.ule s.period then s.switchActive else Config.oversizedOnTime s.draws

end Sys2Proof.Machine
end

