-- ==== Sys2Proof/Machine/Commands.lean ====
section
/-! DEFINITION. The host commands (spec/43_commands.md R204 to R210): what `Apply` does for each. -/

namespace Sys2Proof.Machine

open Sys2Proof

/-- SETTARGET (R205): the target, clamped to `MAX_TARGET`. -/
def execSettarget (value : Half) (s : State) : Result :=
  .next { s with controller := { s.controller with target := minHalf value s.cfg.maxTarget } }

/-- DIGIT (R206): single-digit mode; `mask_b` and the thresholds keep their values. -/
def execDigit (code : Nibble) (s : State) : Result :=
  .next { s with fade := { s.fade with maskA := digitMask s.cfg code, fadeEnabled := false } }

/-- FADECFG (R207): both masks and both thresholds, stored as given. -/
def execFadecfg (codeA codeB : Nibble) (t0 t1 : Byte) (s : State) : Result :=
  .next { s with
    fade := { s.fade with
      maskA := digitMask s.cfg codeA, maskB := digitMask s.cfg codeB,
      threshold0 := t0, threshold1 := t1, fadeEnabled := true } }

/-- The first write of opcode 4 (R208, `POLL.apply.period`). -/
def writePeriod (per : Byte) (s : State) : State := { s with period := per.setWidth 16 }

/-- The second write of opcode 4 (R208, `POLL.apply.cap`). -/
def writeCap (maxd : Byte) (s : State) : State := { s with dutyCap := maxd }

/-- TUNE (R208): `period`, then `duty_cap`; where `HAS_TUNE` is false, opcode 4 is ignored (R210). -/
def execTune (per maxd : Byte) (s : State) : Result :=
  if s.cfg.hasTune then .next (writeCap maxd (writePeriod per s)) else .next s

/-- AUX (R209): the raw value, unclamped. -/
def execAux (value : Half) (s : State) : Result := .next { s with auxDuty := value }

/-- `Apply(IGNORED)` writes nothing (R210). -/
def applyIgnored (s : State) : Result := .next s

/-- IGNORED, opcode 0 (R210). -/
def execIgnored0 (s : State) : Result := applyIgnored s

/-- IGNORED, opcode 4 where `HAS_TUNE` is false (R210). -/
def execIgnored4 (s : State) : Result := applyIgnored s

/-- IGNORED, opcode 6 (R210). -/
def execIgnored6 (s : State) : Result := applyIgnored s

/-- IGNORED, opcode 7 (R210). -/
def execIgnored7 (s : State) : Result := applyIgnored s

/-- IGNORED, opcode 8 (R210). -/
def execIgnored8 (s : State) : Result := applyIgnored s

/-- IGNORED, opcode 9 (R210). -/
def execIgnored9 (s : State) : Result := applyIgnored s

/-- IGNORED, opcode 10 (R210). -/
def execIgnored10 (s : State) : Result := applyIgnored s

/-- IGNORED, opcode 11 (R210). -/
def execIgnored11 (s : State) : Result := applyIgnored s

/-- IGNORED, opcode 12 (R210). -/
def execIgnored12 (s : State) : Result := applyIgnored s

/-- IGNORED, opcode 13 (R210). -/
def execIgnored13 (s : State) : Result := applyIgnored s

/-- IGNORED, opcode 14 (R210). -/
def execIgnored14 (s : State) : Result := applyIgnored s

/-- IGNORED, opcode 15 (R210). -/
def execIgnored15 (s : State) : Result := applyIgnored s

/-- `Apply(op)` (R202): the rule of a decoded command. An event is no command; no command word decodes to
one. -/
def applyCommand (i : Instr) (s : State) : Result :=
  match i with
  | .settarget value => execSettarget value s
  | .digit code => execDigit code s
  | .fadecfg codeA codeB t0 t1 => execFadecfg codeA codeB t0 t1 s
  | .tune per maxd => execTune per maxd s
  | .aux value => execAux value s
  | .ignored0 => execIgnored0 s
  | .ignored4 => execIgnored4 s
  | .ignored6 => execIgnored6 s
  | .ignored7 => execIgnored7 s
  | .ignored8 => execIgnored8 s
  | .ignored9 => execIgnored9 s
  | .ignored10 => execIgnored10 s
  | .ignored11 => execIgnored11 s
  | .ignored12 => execIgnored12 s
  | .ignored13 => execIgnored13 s
  | .ignored14 => execIgnored14 s
  | .ignored15 => execIgnored15 s
  | .sample _ _ => .refused .notACommand
  | .poll _ _ => .refused .notACommand
  | .fade _ => .refused .notACommand
  | .reset => .refused .notACommand

end Sys2Proof.Machine
end

