-- ==== Sys2Proof/Machine/Compensation.lean ====
section
/-! DEFINITION. Supply-voltage compensation and the software multiply (spec/41_compensation.md). -/

namespace Sys2Proof.Machine

open Sys2Proof

/-- The shift sum of `MaxDuty` before its clamp (R142): `(v >>a MD_A) - (v >>a MD_B) - (v >>a MD_C)`. -/
def maxDutyRaw (c : Config) (v : Word) : Word := sar v c.mdA - sar v c.mdB - sar v c.mdC

/-- `min(zext_32(period), zext_32(duty_cap))` (R142). -/
def dutyLimit (period : Half) (dutyCap : Byte) : Word := minWord (zext32 period) (zext32 dutyCap)

/-- `MaxDuty(fr, period, duty_cap)` (R141, R142). -/
def maxDutyOf (c : Config) (fr : Word) (period : Half) (dutyCap : Byte) : Word :=
  clamp (maxDutyRaw c (postShift c fr)) 0 (dutyLimit period dutyCap)

/-- The loop of `SWMUL` (R146), with the number of iterations it has run (R147): `s` is what is left of the
smaller operand, `l` the shifted larger one. Sixteen rounds suffice for a 16-bit `s`. -/
def swmulLoop : Nat → Half → Word → Word → Nat → Word × Nat
  | 0, _, _, acc, n => (acc, n)
  | fuel + 1, s, l, acc, n =>
    if s = 0 then (acc, n)
    else swmulLoop fuel (s >>> 1) (l <<< 1) (if s.getLsbD 0 then acc + l else acc) (n + 1)

/-- `SWMUL` with its iteration count: the loop runs over the bits of the smaller operand (R146). -/
def swmulRun (x y : Half) : Word × Nat :=
  if x.ule y then swmulLoop 16 x (zext32 y) 0 0 else swmulLoop 16 y (zext32 x) 0 0

/-- `SWMUL(x, y)` (R146). -/
def swmul (x y : Half) : Word := (swmulRun x y).1

/-- The iteration count of `SWMUL(x, y)` (R147): timing, which no operation reads. -/
def swmulIterations (x y : Half) : Nat := (swmulRun x y).2

/-- `CompTarget(fr, target)` (R148). -/
def compTarget (c : Config) (fr : Word) (target : Half) : Word :=
  let num := swmul (fr.extractLsb' 0 16) target
  shr num c.ctS1 + shr num c.ctS2 + (match c.ctS3 with | none => 0 | some n => shr num n)

end Sys2Proof.Machine
end

