-- ==== Sys2Proof/Machine/Control.lean ====
section
/-! DEFINITION. The control law: the SAMPLE operation (spec/40_control_law.md). -/

namespace Sys2Proof.Machine

open Sys2Proof

/-- `IIR(f, r)` (R103). -/
def iir (c : Config) (f : Word) (r : Sample) : Word := f - sar f c.k + zext32 r

/-- The derivative's shift (R108). -/
def derivativeShift (c : Config) (d : Word) : Word :=
  match c.dDir with
  | .shl => shl d c.dShift
  | .shr => sar d c.dShift

/-- `DTerm(error, previous_error)` (R108). -/
def dTerm (c : Config) (e p : Word) : Word :=
  match c.dMode with
  | .none => 0
  | .add => derivativeShift c (e - p)
  | .sub => derivativeShift c (p - e)

/-- The clamped integral (R107). -/
def nextIntegral (c : Config) (integral error : Word) : Word :=
  clamp (integral + error) (integralBound c c.iMin) (integralBound c c.iMax)

/-- The unclamped plant output (R109). -/
def plantOutput (c : Config) (error integral dterm : Word) : Word :=
  shl error c.pShift + sar integral c.iShift + dterm

/-- The control cycle as a function of the registers it reads and the sample pair (R100, R113). -/
def controlLaw (c : Config) (k : ControllerState) (period : Half) (dutyCap : Byte)
    (fbRaw refRaw : Sample) : ControllerState :=
  let ff := iir c k.filteredFeedback fbRaw
  let fr := iir c k.filteredReference refRaw
  let maxDuty := maxDutyOf c fr period dutyCap
  let ct := compTarget c fr k.target
  let error := ct - ff
  let integral := nextIntegral c k.integral error
  let duty := plantOutput c error integral (dTerm c error k.previousError)
  { target := k.target
    filteredFeedback := ff
    filteredReference := fr
    integral := integral
    compensatedTarget := ct
    maxDuty := maxDuty
    dutyCommand := clamp duty 0 maxDuty
    previousError := error }

/-- `duty_command[15:0]`, the value on the `switch_duty` port (R111). -/
def dutyPort (k : ControllerState) : Half := k.dutyCommand.extractLsb' 0 16

/-- The body of SAMPLE, from the filters to the duty write (R100, R111): the write reaches the timer's
buffered compare register (R101). -/
def runControlLaw (fbRaw refRaw : Sample) (s : State) : State :=
  let k := controlLaw s.cfg s.controller s.period s.dutyCap fbRaw refRaw
  { s with
    controller := k, switchCompare := dutyPort k, outputs := s.outputs ++ [.switchDuty (dutyPort k)],
    control := .dutyWritten }

/-- A trigger that is not recognised is lost; the sampler's pair stays among those the next SAMPLE may
see (R243, R272; log entry 10). -/
def loseTrigger (fbRaw refRaw : Sample) (s : State) : State :=
  { s with results := s.results ++ [(fbRaw, refRaw)] }

/-- SAMPLE (R100): arrival and service together (R242); lost while one runs or before boot ends. -/
def execSample (fbRaw refRaw : Sample) (s : State) : Result :=
  if sampleMayStart s then
    .next (returnFromInterrupt (runControlLaw fbRaw refRaw (takeInterrupt fbRaw refRaw s)))
  else .next (loseTrigger fbRaw refRaw s)

end Sys2Proof.Machine
end

