-- ==== Sys2Proof/Machine/Fade.lean ====
section
/-! DEFINITION. The FADE operation and its transition guard (spec/42_fade.md R175 to R177). -/

namespace Sys2Proof.Machine

open Sys2Proof

/-- The start of a mask change (R175): all-off on the bus, held for at least `GAP_HOLD`. -/
def startGap (m : Half) (s : State) : State :=
  { s with
    outMask := 0, outputs := s.outputs ++ [.digitBus 0, .gapHold s.cfg.gapHold], polling := .holding m }

/-- The end of a mask change (R175): the new mask on the bus, and the next step is a POLL. -/
def endGap (m : Half) (s : State) : State :=
  { s with
    outMask := m, outputs := s.outputs ++ [.digitBus m],
    fade := { s.fade with lastAppliedMask := m }, mainPhase := .poll, polling := .between }

/-- The end of a FADE that changes nothing on the bus (R177). -/
def keepMask (s : State) : State := { s with mainPhase := .poll }

/-- The mask that a FADE at this timestamp computes (R172, R173). -/
def fadeMask (ts : Nat) (s : State) : Half := fadeEval s.fade (phase s.cfg ts)

/-- FADE (R175). -/
def execFade (ts : Nat) (s : State) : Result :=
  if fadeTurn s then
    if fadeMask ts s = s.fade.lastAppliedMask then .next (keepMask s)
    else .next (endGap (fadeMask ts s) (startGap (fadeMask ts s) s))
  else .refused .outOfTurn

/-- A FADE up to its hold; one that changes no mask is done at once (log entry 13). -/
def microFadeBegin (ts : Nat) (s : State) : Result :=
  if 2 ^ s.cfg.tsBits ≤ ts then .refused (.badEvent .timestampTooWide)
  else if fadeTurn s then
    if fadeMask ts s = s.fade.lastAppliedMask then .next (keepMask s)
    else .next (startGap (fadeMask ts s) s)
  else .refused .outOfTurn

/-- The rest of a FADE after its hold (log entry 13). -/
def microFadeEnd (s : State) : Result :=
  match s.polling with
  | .holding m => .next (endGap m s)
  | .between => .refused .outOfTurn
  | .periodWritten _ => .refused .outOfTurn
  | .applied => .refused .outOfTurn
  | .feedbackRead _ => .refused .outOfTurn

end Sys2Proof.Machine
end

