-- ==== Sys2Proof/Machine/Polling.lean ====
section
/-! DEFINITION. The POLL operation and its micro-steps (spec/43_commands.md R200 to R202, R212). -/

namespace Sys2Proof.Machine

open Sys2Proof

/-- Micro-step 1's command (R200, R201): the decoded word where it is fresh, nothing on an idle poll. -/
def applyFresh (fresh : Bool) (word : Word) (s : State) : Result :=
  if fresh then applyCommand (decodeCommand s.cfg.hasTune word) s else .next s

/-- Micro-step 2 (R212): read `filtered_feedback`. -/
def readFeedback (s : State) : State := setPolling (.feedbackRead s.controller.filteredFeedback) s

/-- Micro-step 3 (R200, R212): read `filtered_reference`, publish the status word, hand over to FADE. -/
def publishStatus (fb : Word) (s : State) : State :=
  let w := statusWord s.cfg fb s.controller.filteredReference
  { s with status := w, outputs := s.outputs ++ [.statusWord w], mainPhase := .fade, polling := .between }

/-- POLL with no SAMPLE inside it (R200, R93). -/
def execPoll (fresh : Bool) (word : Word) (s : State) : Result :=
  if pollTurn s then
    andThen (applyFresh fresh word s) fun t =>
      .next (publishStatus t.controller.filteredFeedback (readFeedback t))
  else .refused .outOfTurn

/-- The micro-step `POLL.apply` (R93, R200). -/
def microApply (fresh : Bool) (word : Word) (s : State) : Result :=
  if pollTurn s then andThen (applyFresh fresh word s) fun t => .next (setPolling .applied t)
  else .refused .outOfTurn

/-- The micro-step `POLL.apply.period` (R93, R208). -/
def microApplyPeriod (word : Word) (s : State) : Result :=
  if pollTurn s then
    match decodeCommand s.cfg.hasTune word with
    | .tune per maxd => .next (setPolling (.periodWritten maxd) (writePeriod per s))
    | _ => .refused .notTune
  else .refused .outOfTurn

/-- The micro-step `POLL.apply.cap` (R93, R208). -/
def microApplyCap (s : State) : Result :=
  match s.polling with
  | .periodWritten maxd => .next (setPolling .applied (writeCap maxd s))
  | .between => .refused .outOfTurn
  | .applied => .refused .outOfTurn
  | .feedbackRead _ => .refused .outOfTurn
  | .holding _ => .refused .outOfTurn

/-- The micro-step `POLL.rdfb` (R93, R212). -/
def microRdfb (s : State) : Result :=
  match s.polling with
  | .applied => .next (readFeedback s)
  | .between => .refused .outOfTurn
  | .periodWritten _ => .refused .outOfTurn
  | .feedbackRead _ => .refused .outOfTurn
  | .holding _ => .refused .outOfTurn

/-- The micro-step `POLL.rdref` (R93, R212). -/
def microRdref (s : State) : Result :=
  match s.polling with
  | .feedbackRead fb => .next (publishStatus fb s)
  | .between => .refused .outOfTurn
  | .periodWritten _ => .refused .outOfTurn
  | .applied => .refused .outOfTurn
  | .holding _ => .refused .outOfTurn

end Sys2Proof.Machine
end

