-- ==== Sys2Proof/Machine/Reset.lean ====
section
/-! DEFINITION. The RESET operation (spec/70_reset_and_hazards.md R270). -/

namespace Sys2Proof.Machine

/-- RESET (R270), from any state. -/
def execReset (s : State) : Result := .next (resetOperation s)

end Sys2Proof.Machine
end

