-- ==== Sys2Proof/Machine/Dispatch.lean ====
section
/-! DEFINITION. exec: one arm per instruction, each one call of that instruction's meaning. -/

namespace Sys2Proof.Machine

open Sys2Proof

def exec (i : Instr) (s : State) : Host.Outcome State Fault Refusal :=
  match i with
  | .settarget value => Sys2Proof.Machine.execSettarget value s
  | .digit code => Sys2Proof.Machine.execDigit code s
  | .fadecfg codeA codeB t0 t1 => Sys2Proof.Machine.execFadecfg codeA codeB t0 t1 s
  | .tune per maxd => Sys2Proof.Machine.execTune per maxd s
  | .aux value => Sys2Proof.Machine.execAux value s
  | .ignored0 => Sys2Proof.Machine.execIgnored0 s
  | .ignored4 => Sys2Proof.Machine.execIgnored4 s
  | .ignored6 => Sys2Proof.Machine.execIgnored6 s
  | .ignored7 => Sys2Proof.Machine.execIgnored7 s
  | .ignored8 => Sys2Proof.Machine.execIgnored8 s
  | .ignored9 => Sys2Proof.Machine.execIgnored9 s
  | .ignored10 => Sys2Proof.Machine.execIgnored10 s
  | .ignored11 => Sys2Proof.Machine.execIgnored11 s
  | .ignored12 => Sys2Proof.Machine.execIgnored12 s
  | .ignored13 => Sys2Proof.Machine.execIgnored13 s
  | .ignored14 => Sys2Proof.Machine.execIgnored14 s
  | .ignored15 => Sys2Proof.Machine.execIgnored15 s
  | .sample fbRaw refRaw => Sys2Proof.Machine.execSample fbRaw refRaw s
  | .poll fresh word => Sys2Proof.Machine.execPoll fresh word s
  | .fade ts => Sys2Proof.Machine.execFade ts s
  | .reset => Sys2Proof.Machine.execReset s

end Sys2Proof.Machine
end

