-- ==== Sys2Proof/Machine/Environment.lean ====
section
/-! DEFINITION. What the environment does between the block's micro-steps: conversions complete, periods
end, time passes (spec/40_control_law.md R101, R102; 60_exceptions.md R242, R243, R250). -/

namespace Sys2Proof.Machine

open Sys2Proof

/-- A conversion completes (R242, R243): it sets `sample_pending`, or the trigger is lost. -/
def conversionCompletes (fbRaw refRaw : Sample) (s : State) : State :=
  if triggerRecognised s then
    { s with samplePending := true, results := s.results ++ [(fbRaw, refRaw)] }
  else loseTrigger fbRaw refRaw s

/-- A switching period ends (R101, R280): the buffered compare value comes into force. -/
def periodEnds (s : State) : State :=
  { s with switchActive := s.switchCompare, draws := s.draws + 1 }

/-- One clock unit passes (R250, E10): an armed watchdog that has seen no pet for `WDT_TIMEOUT` units
forces a RESET (log entry 11). -/
def clockTick (s : State) : State :=
  if watchdogArmed s then
    if s.cfg.wdtTimeout ≤ s.sincePet + 1 then resetOperation s else { s with sincePet := s.sincePet + 1 }
  else s

/-- Serving the pending interrupt (R242, R246). -/
def servePending (s : State) : State :=
  { takeInterrupt (servedPair s).1 (servedPair s).2 s with draws := s.draws + 1 }

/-- The core's own next micro-step, if it has one (R244): a SAMPLE in progress goes on before anything
else, then boot, then a pending interrupt is taken. -/
def ownWork (s : State) : Option State :=
  match s.control with
  | .running fbRaw refRaw => some (runControlLaw fbRaw refRaw s)
  | .dutyWritten => some (returnFromInterrupt s)
  | .idle =>
    if s.boot ≠ .running then some (bootStep s)
    else if s.samplePending then some (servePending s)
    else none

end Sys2Proof.Machine
end

