-- ==== Sys2Proof/Machine/Stream.lean ====
section
/-! DEFINITION. Fetching the next input and running it (spec/30_encoding.md R90 to R93; log entries 5, 18):
what the step does with the head of the inbox. -/

namespace Sys2Proof.Machine

open Sys2Proof

/-- The input happens at once, whatever the core is doing (R243, R244, R245): RESET, a conversion, a period
boundary, a clock unit, and the order to go on. An event word that names no event is refused at once. Every
other input waits until the core has no work of its own left. -/
def takenAtOnce (c : Config) (inp : Input) : Bool :=
  match inp with
  | .event w =>
    match decodeEvent c w with
    | .ok i => i == .reset
    | .error _ => true
  | .conversion _ _ => true
  | .periodBoundary => true
  | .tick => true
  | .proceed => true
  | .pollApply _ _ => false
  | .pollApplyPeriod _ => false
  | .pollApplyCap => false
  | .pollRdfb => false
  | .pollRdref => false
  | .fadeBegin _ => false
  | .fadeEnd => false

/-- The input is the completion of a conversion: a `conversion`, or a SAMPLE statement, which stands for the
arrival and the service together (R242; DEDUCED, log entry 21). -/
def completesConversion (c : Config) (inp : Input) : Bool :=
  match inp with
  | .event w =>
    match decodeEvent c w with
    | .ok (.sample _ _) => true
    | .ok _ => false
    | .error _ => false
  | .conversion _ _ => true
  | .pollApply _ _ => false
  | .pollApplyPeriod _ => false
  | .pollApplyCap => false
  | .pollRdfb => false
  | .pollRdref => false
  | .fadeBegin _ => false
  | .fadeEnd => false
  | .periodBoundary => false
  | .tick => false
  | .proceed => false

/-- The stream premise of spec/70_reset_and_hazards.md R276 (a) (40_control_law.md R102, R291): at most one
conversion completes in each switching period. `due` says that the current period's has not completed yet; the
timer's reload, which triggers the next conversion, makes one due again. DESIGN CHOICE, unsafe (log entry 21):
RESET begins no new period here, so `due` stands across it, and a conversion lost during boot counts. -/
def sampledOncePerPeriod (c : Config) (due : Bool) (inputs : List Input) : Bool :=
  match inputs with
  | [] => true
  | inp :: rest =>
    if completesConversion c inp then due && sampledOncePerPeriod c false rest
    else sampledOncePerPeriod c (due || inp == .periodBoundary) rest

/-- The operands of the input fit their ports: the event word names an event, whose sample pair is two results
of 10 bits (R276 (b)), whose timestamp is any of `TS_BITS` bits (R276 (c)) and whose command word has its
freshness mark (R276 (d)). -/
def operandsFit (c : Config) (inp : Input) : Bool :=
  match inp with
  | .event w =>
    match decodeEvent c w with
    | .ok _ => true
    | .error _ => false
  | .fadeBegin ts => decide (ts < 2 ^ c.tsBits)
  | .pollApply _ _ => true
  | .pollApplyPeriod _ => true
  | .pollApplyCap => true
  | .pollRdfb => true
  | .pollRdref => true
  | .fadeEnd => true
  | .conversion _ _ => true
  | .periodBoundary => true
  | .tick => true
  | .proceed => true

/-- What the block's rules assume about the environment (R276): premises on the stream of inputs, which the
block cannot check. No step looks at them; statements take them as hypotheses (log entry 5). -/
def environmentPremises (c : Config) (due : Bool) (inputs : List Input) : Bool :=
  sampledOncePerPeriod c due inputs && inputs.all (operandsFit c)

/-- Running one input, which is no longer in the inbox. -/
def runInput (inp : Input) (s : State) : Result :=
  match inp with
  | .event w =>
    match decodeEvent s.cfg w with
    | .ok i => exec i s
    | .error e => .refused (.badEvent e)
  | .pollApply fresh word => microApply fresh word s
  | .pollApplyPeriod word => microApplyPeriod word s
  | .pollApplyCap => microApplyCap s
  | .pollRdfb => microRdfb s
  | .pollRdref => microRdref s
  | .fadeBegin ts => microFadeBegin ts s
  | .fadeEnd => microFadeEnd s
  | .conversion fbRaw refRaw => .next (conversionCompletes fbRaw refRaw s)
  | .periodBoundary => .next (periodEnds s)
  | .tick => .next (clockTick s)
  | .proceed => .next ((ownWork s).getD s)

/-- One step on a configuration the model accepts: the head of the inbox if it happens at once, else the
core's own work, else the head of the inbox. With an empty inbox and no work, the block waits (R258). -/
def advance (s : State) : Result :=
  match s.inbox with
  | [] => .next ((ownWork s).getD s)
  | inp :: rest =>
    if takenAtOnce s.cfg inp then runInput inp (setInbox rest s)
    else
      match ownWork s with
      | some t => .next t
      | none => runInput inp (setInbox rest s)

/-- The statement `POLL <command>` with its word, or the idle `POLL` (R93), as an input. -/
def pollStatement (command : Option Word) : Input :=
  match command with
  | some w => .event (1 + 2 ^ 8 + w.toNat * 2 ^ 16)
  | none => .event 1

/-- `OFF` (R94): the word of `DIGIT 0`. -/
def offWord : Word := 0x00000002

/-- `CMDNOP` (R94): the word with opcode 0. -/
def nopWord : Word := 0x00000000

/-- `ITER <command>, ts` (R94): one iteration of the main loop, as inputs. -/
def iterStatements (command : Word) (ts : Nat) : List Input :=
  [pollStatement (some command), .event (2 + ts * 2 ^ 8)]

/-- `IDLE ts` (R94), as inputs. -/
def idleStatements (ts : Nat) : List Input := [pollStatement none, .event (2 + ts * 2 ^ 8)]

/-- The input that the host's probe stands for: an event word, or a fresh command word in a POLL's first
micro-step (R202; log entry 4). -/
def tableInput (nbits w : Nat) : Input :=
  match tableEncoding nbits w with
  | .event v => .event v
  | .command v => .pollApply true v

/-- The phase the polling context has to be in for that input (R91). -/
def tablePhase (nbits w : Nat) : Phase :=
  match decodeTableWord nbits w with
  | some (.fade _) => .fade
  | _ => .poll

end Sys2Proof.Machine
end

