-- ==== Sys2Proof/Machine/Step.lean ====
section
/-! DEFINITION. The step of the machine, and the placement of one instruction where it fetches next. -/

namespace Sys2Proof.Machine

open Sys2Proof

/-- One step: a configuration that breaks spec/00_scope.md R7 is refused; else `advance`. -/
def step (s : State) : Host.Outcome State Fault Refusal :=
  if s.cfg.wf then advance s else .refused .badConfiguration

/-- `s` with a table row's instruction as the next input, and with the block ready to take it: boot over,
no SAMPLE pending or running, the polling context at its turn (log entry 4). -/
def State.withFetchWord (s : State) (nbits w : Nat) : State :=
  { s with
    inbox := tableInput nbits w :: s.inbox, boot := .running, samplePending := false, control := .idle,
    polling := .between, mainPhase := tablePhase nbits w }

end Sys2Proof.Machine
end

