-- ==== Sys2Proof/Safety.lean ====
section
/-! DEFINITION. What a safe run is, in the terms claims use: the invariants of spec/10_state.md R45, the
ownership of registers (R46), the guard on the digit bus (spec/42_fade.md R176), and the exact integer
meaning of a control cycle under the no-wrap condition (spec/00_scope.md R8). -/

namespace Sys2Proof.Machine

open Sys2Proof

/-- A mask that drives at most one digit cathode (R34, R176): one-hot or all-off. -/
def legalMask (m : Half) : Bool := m == 0 || oneHot m

/-- The value lies in `[0, 1023 << K]`, the range of both filters (R24, R25). -/
def inFilterRange (c : Config) (f : Word) : Prop := 0 ≤ f.toInt ∧ f.toInt ≤ c.fMax

/-- The value lies in the integral's window `[I_MIN << K, I_MAX << K]` (R26, R107). -/
def inIntegralWindow (c : Config) (x : Word) : Prop :=
  c.iMin * 2 ^ c.k ≤ x.toInt ∧ x.toInt ≤ c.iMax * 2 ^ c.k

/-- R24 to R30 and R45 (a), (d), for ControllerState; the integral may also still hold its reset value. -/
structure ControllerInv (c : Config) (k : ControllerState) : Prop where
  target_le : k.target.toNat ≤ c.maxTarget.toNat
  feedback_range : inFilterRange c k.filteredFeedback
  reference_range : inFilterRange c k.filteredReference
  integral_window : k.integral = 0 ∨ inIntegralWindow c k.integral
  compensated_range : 0 ≤ k.compensatedTarget.toInt ∧ k.compensatedTarget.toInt ≤ c.ctMax
  max_duty_range : 0 ≤ k.maxDuty.toInt ∧ k.maxDuty.toInt ≤ 255
  duty_range : 0 ≤ k.dutyCommand.toInt ∧ k.dutyCommand.toInt ≤ k.maxDuty.toInt
  error_range : -(c.fMax : Int) ≤ k.previousError.toInt ∧ k.previousError.toInt ≤ c.ctMax

/-- R34, R45 (e), R176 (b), R179: every mask is one-hot or zero, and between FADE steps the bus shows the
last applied mask. -/
structure DisplayInv (s : State) : Prop where
  mask_a : legalMask s.fade.maskA = true
  mask_b : legalMask s.fade.maskB = true
  last_mask : legalMask s.fade.lastAppliedMask = true
  next_mask : ∀ m, s.polling = .holding m → legalMask m = true
  bus_in_gap : ∀ m, s.polling = .holding m → s.outMask = 0
  bus_between : (∀ m, s.polling ≠ .holding m) → s.outMask = s.fade.lastAppliedMask

/-- How the sequencing state hangs together (R43, R44, R70, R243, R250, R272, R275). -/
structure SequencingInv (s : State) : Prop where
  hold_in_fade : ∀ m, s.polling = .holding m → s.mainPhase = .fade
  micro_in_poll : s.polling ≠ .between → (∀ m, s.polling ≠ .holding m) → s.mainPhase = .poll
  feedback_read : ∀ fb, s.polling = .feedbackRead fb → inFilterRange s.cfg fb
  boot_quiet : s.boot ≠ .running → s.control = .idle ∧ s.polling = .between ∧ s.samplePending = false
  pending_has_pair : s.samplePending = true → s.results ≠ []
  watchdog_fed : s.sincePet < s.cfg.wdtTimeout

/-- The machine's invariant: an accepted configuration, R45 (a), (d) and (e), the ranges of R24 to R30, the
status word's zero bits (R39), the duty last written standing in the timer's compare buffer (R29). -/
structure Inv (s : State) : Prop where
  cfg_wf : s.cfg.wf = true
  controller : ControllerInv s.cfg s.controller
  display : DisplayInv s
  sequencing : SequencingInv s
  status_low : s.status.extractLsb' 0 12 = 0
  compare_is_duty : s.switchCompare = dutyPort s.controller

/-- R46: the registers that the polling context alone writes, and its progress, are equal in both. -/
def samePollingRegisters (s t : State) : Prop :=
  t.controller.target = s.controller.target ∧ t.period = s.period ∧ t.dutyCap = s.dutyCap
    ∧ t.auxDuty = s.auxDuty ∧ t.fade = s.fade ∧ t.outMask = s.outMask ∧ t.status = s.status
    ∧ t.mainPhase = s.mainPhase ∧ t.polling = s.polling

/-- R46: the registers that the control context alone writes, and its progress, are equal in both. -/
def sameControlRegisters (s t : State) : Prop :=
  t.controller = { s.controller with target := t.controller.target }
    ∧ t.samplePending = s.samplePending ∧ t.control = s.control

/-- The digit bus as an observer of the output events sees it (R176): the mask now driven, and whether an
all-off mask has been held for the time asked since the last write. -/
structure BusView where
  mask : Half
  gapHeld : Bool
  deriving DecidableEq, Repr

/-- The observer after one output event, `gap` being `GAP_HOLD`. -/
def BusView.observe (gap : Nat) (v : BusView) (o : Output) : BusView :=
  match o with
  | .digitBus m => { mask := m, gapHeld := false }
  | .gapHold n => { v with gapHeld := v.mask == 0 && decide (gap ≤ n) }
  | .switchDuty _ => v
  | .switchPeriod _ => v
  | .auxDuty _ => v
  | .statusWord _ => v
  | .sampleStart => v
  | .wdtPet => v

/-- R176 (a) at one output event: a non-zero mask is written only after an all-off mask that was held. -/
def BusView.allows (v : BusView) (o : Output) : Bool :=
  match o with
  | .digitBus m => m == 0 || (v.mask == 0 && v.gapHeld)
  | .gapHold _ => true
  | .switchDuty _ => true
  | .switchPeriod _ => true
  | .auxDuty _ => true
  | .statusWord _ => true
  | .sampleStart => true
  | .wdtPet => true

/-- The observer after a list of output events. -/
def busAfter (gap : Nat) (v : BusView) : List Output → BusView
  | [] => v
  | o :: os => busAfter gap (v.observe gap o) os

/-- R176 (a) along a list of output events. -/
def busGuarded (gap : Nat) (v : BusView) : List Output → Bool
  | [] => true
  | o :: os => v.allows o && busGuarded gap (v.observe gap o) os

/-- What drives the bus before any output: unknown to the observer, so taken as all-off and not held. -/
def BusView.start : BusView := { mask := 0, gapHeld := false }

/-- R176 (a) along the whole run, and the bus as observed is the bus as held (R38); while FADE holds its
gap, the gap has been asked for in full. -/
structure GuardInv (s : State) : Prop where
  guarded : busGuarded s.cfg.gapHold BusView.start s.outputs = true
  bus_seen : (busAfter s.cfg.gapHold BusView.start s.outputs).mask = s.outMask
  gap_asked : ∀ m, s.polling = .holding m →
    s.outMask = 0 ∧ (busAfter s.cfg.gapHold BusView.start s.outputs).gapHeld = true

/-- The bits that formats R82 to R85 give a meaning, by opcode; the others are don't-care (R88). -/
def meaningfulBits (hasTune : Bool) (opc : Nibble) : Word :=
  match opc.toNat with
  | 1 => 0xFFFF000F
  | 2 => 0x000F000F
  | 3 => 0xFFFFFF0F
  | 4 => if hasTune then 0xFFFF000F else 0x0000000F
  | 5 => 0xFFFF000F
  | _ => 0x0000000F

/-- `clamp` over the integers (R12). -/
def clampInt (x lo hi : Int) : Int := if x < lo then lo else if hi < x then hi else x

/-- `bitlen(n)` (spec/41_compensation.md R147). -/
def bitlen (n : Nat) : Nat := if n = 0 then 0 else Nat.log2 n + 1

/-- `raw` of `MaxDuty` over the integers (R142), on a post-shift reference. -/
def maxDutyInt (c : Config) (v : Int) : Int := v / 2 ^ c.mdA - v / 2 ^ c.mdB - v / 2 ^ c.mdC

/-- `CompTarget` over the naturals (R148), on the exact product. -/
def compTargetNat (c : Config) (num : Nat) : Nat :=
  num / 2 ^ c.ctS1 + num / 2 ^ c.ctS2 + (match c.ctS3 with | none => 0 | some n => num / 2 ^ n)

/-- `DTerm` over the integers (R108). -/
def dTermInt (c : Config) (e p : Int) : Int :=
  match c.dMode, c.dDir with
  | .none, _ => 0
  | .add, .shl => (e - p) * 2 ^ c.dShift
  | .add, .shr => (e - p) / 2 ^ c.dShift
  | .sub, .shl => (p - e) * 2 ^ c.dShift
  | .sub, .shr => (p - e) / 2 ^ c.dShift

/-- A control cycle in exact integers (R100, R103 to R111): what the registers `k'` after a SAMPLE on
`(fbRaw, refRaw)` hold, from the registers `k` before it. Division rounds toward minus infinity (R11). -/
structure ExactCycle (c : Config) (k : ControllerState) (period : Half) (dutyCap : Byte)
    (fbRaw refRaw : Sample) (k' : ControllerState) : Prop where
  target : k'.target = k.target
  feedback : k'.filteredFeedback.toInt =
    k.filteredFeedback.toInt - k.filteredFeedback.toInt / 2 ^ c.k + fbRaw.toNat
  reference : k'.filteredReference.toInt =
    k.filteredReference.toInt - k.filteredReference.toInt / 2 ^ c.k + refRaw.toNat
  max_duty : k'.maxDuty.toInt =
    clampInt (maxDutyInt c (k'.filteredReference.toInt / 2 ^ c.k)) 0 (min period.toNat dutyCap.toNat)
  compensated : k'.compensatedTarget.toInt =
    compTargetNat c (k'.filteredReference.toNat * k.target.toNat)
  error : k'.previousError.toInt = k'.compensatedTarget.toInt - k'.filteredFeedback.toInt
  integral : k'.integral.toInt =
    clampInt (k.integral.toInt + k'.previousError.toInt) (c.iMin * 2 ^ c.k) (c.iMax * 2 ^ c.k)
  duty : k'.dutyCommand.toInt =
    clampInt (k'.previousError.toInt * 2 ^ c.pShift + k'.integral.toInt / 2 ^ c.iShift
      + dTermInt c k'.previousError.toInt k.previousError.toInt) 0 k'.maxDuty.toInt

end Sys2Proof.Machine
end

