-- ==== Sys2Proof/Certificates/Slice0/Obligations.lean ====
section
/-! DEFINITION. The statements for the provers, from the numbered rules of spec/. -/

open Sys2Proof Sys2Proof.Machine

/-! ## Encoding -/

/-- Every instruction a configuration can be given decodes from its own encoding (R89, R92; the event words'
layout is the model's, log entry 3). -/
def Obligations.EncodingsDecodeBack : Prop :=
  ∀ (c : Config) (i : Instr), i.wf c = true → decode c (encode i) = .ok i

/-- An event word that the decoder accepts is the encoding of what it decodes to, and that instruction is one
the configuration can be given: no bit of it is dropped (log entry 3). -/
def Obligations.AcceptedEventWordsAreEncodings : Prop :=
  ∀ (c : Config) (w : Nat) (i : Instr),
    decodeEvent c w = .ok i → encode i = .event w ∧ i.wf c = true

/-- R89 on every 32-bit word, by the numbers its fields stand for. -/
def Obligations.EveryCommandWordDecodesByItsFields : Prop :=
  ∀ (hasTune : Bool) (w : Word),
    (w.toNat % 16 = 1 →
      decodeCommand hasTune w = .settarget (BitVec.ofNat 16 (w.toNat / 2 ^ 16))) ∧
    (w.toNat % 16 = 2 → decodeCommand hasTune w = .digit (BitVec.ofNat 4 (w.toNat / 2 ^ 16))) ∧
    (w.toNat % 16 = 3 →
      decodeCommand hasTune w =
        .fadecfg (BitVec.ofNat 4 (w.toNat / 2 ^ 8)) (BitVec.ofNat 4 (w.toNat / 2 ^ 12))
          (BitVec.ofNat 8 (w.toNat / 2 ^ 16)) (BitVec.ofNat 8 (w.toNat / 2 ^ 24))) ∧
    (w.toNat % 16 = 4 → hasTune = true →
      decodeCommand hasTune w =
        .tune (BitVec.ofNat 8 (w.toNat / 2 ^ 16)) (BitVec.ofNat 8 (w.toNat / 2 ^ 24))) ∧
    (w.toNat % 16 = 5 → decodeCommand hasTune w = .aux (BitVec.ofNat 16 (w.toNat / 2 ^ 16))) ∧
    (w.toNat % 16 = 0 ∨ 6 ≤ w.toNat % 16 ∨ (w.toNat % 16 = 4 ∧ hasTune = false) →
      (decodeCommand hasTune w).isIgnored = true)

/-- R88: words that differ only in don't-care bits decode to the same operation. -/
def Obligations.IgnoredBitsDoNotMatter : Prop :=
  ∀ (hasTune : Bool) (v w : Word),
    v &&& meaningfulBits hasTune (w.extractLsb' 0 4) = w &&& meaningfulBits hasTune (w.extractLsb' 0 4) →
    decodeCommand hasTune v = decodeCommand hasTune w

/-- R95: the worked encodings, both ways, and what `TARGET 1000` stores under the reference `MAX_TARGET`. -/
def Obligations.WorkedEncodingsHold : Prop :=
  (encode (.settarget 150) = .command 0x00960001 ∧ decodeCommand true 0x00960001 = .settarget 150) ∧
  (encode (.settarget 1000) = .command 0x03E80001 ∧ decodeCommand true 0x03E80001 = .settarget 1000) ∧
  (∀ s : State, s.cfg = Config.reference →
    ∃ t, exec (.settarget 1000) s = .next t ∧ t.controller.target = 200) ∧
  (encode (.digit 3) = .command 0x00030002 ∧ decodeCommand true 0x00030002 = .digit 3) ∧
  (encode (.fadecfg 1 2 10 50) = .command 0x320A2103 ∧
    decodeCommand true 0x320A2103 = .fadecfg 1 2 10 50) ∧
  (encode (.tune 200 60) = .command 0x3CC80004 ∧ decodeCommand true 0x3CC80004 = .tune 200 60) ∧
  (encode (.aux 0x1234) = .command 0x12340005 ∧ decodeCommand true 0x12340005 = .aux 0x1234) ∧
  decodeCommand true 0xFFFFFFF7 = .ignored7

/-! ## Host commands -/

/-- R205: SETTARGET completes in every state, stores the smaller of the request and `MAX_TARGET`, and changes
nothing else. -/
def Obligations.SettargetStoresTheClampedRequest : Prop :=
  ∀ (value : Half) (s : State), ∃ t,
    exec (.settarget value) s = .next t ∧
    t.controller.target.toNat = min value.toNat s.cfg.maxTarget.toNat ∧
    t = { s with controller := { s.controller with target := t.controller.target } }

/-- R206, with R170 for the mask: DIGIT completes in every state of an accepted configuration, drives the
code's table entry in single-digit mode, and changes nothing else. -/
def Obligations.DigitSelectsOneMask : Prop :=
  ∀ (code : Nibble) (s : State), s.cfg.wf = true → ∃ t,
    exec (.digit code) s = .next t ∧
    t.fade.fadeEnabled = false ∧
    (code = 0 ∨ 12 < code.toNat → t.fade.maskA = 0) ∧
    (1 ≤ code.toNat ∧ code.toNat ≤ 12 → s.cfg.digitMasks[code.toNat - 1]? = some t.fade.maskA) ∧
    t = { s with fade := { s.fade with maskA := t.fade.maskA, fadeEnabled := false } }

/-- R207, with R170 for the masks: FADECFG completes in every state of an accepted configuration, stores both
thresholds as given and enables the fade, and changes nothing else. -/
def Obligations.FadecfgStoresMasksAndThresholds : Prop :=
  ∀ (codeA codeB : Nibble) (t0 t1 : Byte) (s : State), s.cfg.wf = true → ∃ t,
    exec (.fadecfg codeA codeB t0 t1) s = .next t ∧
    (codeA = 0 ∨ 12 < codeA.toNat → t.fade.maskA = 0) ∧
    (1 ≤ codeA.toNat ∧ codeA.toNat ≤ 12 → s.cfg.digitMasks[codeA.toNat - 1]? = some t.fade.maskA) ∧
    (codeB = 0 ∨ 12 < codeB.toNat → t.fade.maskB = 0) ∧
    (1 ≤ codeB.toNat ∧ codeB.toNat ≤ 12 → s.cfg.digitMasks[codeB.toNat - 1]? = some t.fade.maskB) ∧
    t = { s with
      fade := { s.fade with
        maskA := t.fade.maskA, maskB := t.fade.maskB, threshold0 := t0, threshold1 := t1,
        fadeEnabled := true } }

/-- R208 and R210: TUNE completes in every state. Where `HAS_TUNE`, it stores the period zero-extended and the
cap, and changes nothing else; where opcode 4 is not built it changes nothing. -/
def Obligations.TuneWritesPeriodAndCap : Prop :=
  ∀ (per maxd : Byte) (s : State), ∃ t,
    exec (.tune per maxd) s = .next t ∧
    (s.cfg.hasTune = true → t.period.toNat = per.toNat ∧ t.dutyCap = maxd ∧
      t = { s with period := t.period, dutyCap := maxd }) ∧
    (s.cfg.hasTune = false → t = s)

/-- R209 and R40: AUX completes in every state, stores the raw value, which is then the level of the
`aux_duty` port, and changes nothing else. -/
def Obligations.AuxStoresTheRawValue : Prop :=
  ∀ (value : Half) (s : State), ∃ t,
    exec (.aux value) s = .next t ∧ auxDutyPort t = value ∧ t = { s with auxDuty := value }

/-- R210: every IGNORED outcome (opcodes 0, 4 without `HAS_TUNE`, 6 to 15) completes in every state and writes
nothing; and so does opcode 4's word where `HAS_TUNE` is false. -/
def Obligations.IgnoredCommandsWriteNothing : Prop :=
  (∀ i ∈ ([.ignored0, .ignored4, .ignored6, .ignored7, .ignored8, .ignored9, .ignored10, .ignored11,
      .ignored12, .ignored13, .ignored14, .ignored15] : List Instr),
    i.isIgnored = true ∧ ∀ s : State, exec i s = .next s) ∧
  ∀ (w : Word) (s : State), w.toNat % 16 = 4 → exec (decodeCommand false w) s = .next s

/-- R66: applying the same command word twice in a row leaves the same state as applying it once. -/
def Obligations.CommandsAreIdempotent : Prop :=
  ∀ (w : Word) (s : State), ∃ t,
    exec (decodeCommand s.cfg.hasTune w) s = .next t ∧
    exec (decodeCommand t.cfg.hasTune w) t = .next t

/-- R203: every command word completes in every state, writes at most the nine registers the rule lists, and
no other field. -/
def Obligations.CommandsWriteOnlyPollingRegisters : Prop :=
  ∀ (w : Word) (s : State), ∃ t,
    exec (decodeCommand s.cfg.hasTune w) s = .next t ∧
    t = { s with
      controller := { s.controller with target := t.controller.target },
      period := t.period, dutyCap := t.dutyCap, auxDuty := t.auxDuty,
      fade := { t.fade with lastAppliedMask := s.fade.lastAppliedMask } }

/-! ## POLL and the status word -/

/-- R200, R201, R212: a POLL at its turn completes: it applies the word if and only if it is fresh, then
publishes the status word of the two filters with exactly one output, and hands over to FADE. -/
def Obligations.PollAppliesThenPublishes : Prop :=
  ∀ (fresh : Bool) (word : Word) (s : State), pollTurn s = true → ∃ u t,
    (fresh = true → exec (decodeCommand s.cfg.hasTune word) s = .next u) ∧
    (fresh = false → u = s) ∧
    exec (.poll fresh word) s = .next t ∧
    t.status = statusWord s.cfg s.controller.filteredFeedback s.controller.filteredReference ∧
    t = { u with
      status := t.status, outputs := s.outputs ++ [.statusWord t.status], mainPhase := .fade }

/-- R211, R213: for filtered values in range, the two fields of the status word are the post-shift values in
full, and bits 11:0 are zero. -/
def Obligations.StatusWordUnpacksToPostShiftValues : Prop :=
  ∀ (c : Config) (fb ref : Word), c.k ≤ 6 → inFilterRange c fb → inFilterRange c ref →
    (statusWord c fb ref).toNat =
      ref.toNat / 2 ^ c.k * 2 ^ 22 + fb.toNat / 2 ^ c.k * 2 ^ 12 ∧
    ((statusWord c fb ref).extractLsb' 12 10).toNat = fb.toNat / 2 ^ c.k ∧
    ((statusWord c fb ref).extractLsb' 22 10).toNat = ref.toNat / 2 ^ c.k ∧
    (statusWord c fb ref).extractLsb' 0 12 = 0

/-- R91: with the block ready, a POLL in FADE's place and a FADE in POLL's place are refused by name. The
refusal's name is the model's (log entry 14). -/
def Obligations.BrokenAlternationIsRefused : Prop :=
  ∀ (fresh : Bool) (word : Word) (ts : Nat) (s : State),
    (fadeTurn s = true → exec (.poll fresh word) s = .refused .outOfTurn) ∧
    (pollTurn s = true → exec (.fade ts) s = .refused .outOfTurn)

/-- R93: `POLL <command>` stands for `POLL.apply <command>`, `POLL.rdfb`, `POLL.rdref` in that order, and
for opcode 4 the first of them for the two writes. The inbox and the event word's layout are the model's
(log entries 3, 5). -/
def Obligations.PollIsItsMicroSteps : Prop :=
  ∀ (w : Nat) (fresh : Bool) (word : Word) (rest : List Input) (s : State),
    s.cfg.wf = true → pollTurn s = true → s.samplePending = false →
    decode s.cfg (.event w) = .ok (.poll fresh word) →
    (∃ t,
      step (setInbox (.event w :: rest) s) = .next t ∧
      t.inbox = rest ∧
      core.run 3 (setInbox (.pollApply fresh word :: .pollRdfb :: .pollRdref :: rest) s) = .next t ∧
      (fresh = true → (∃ per maxd, decodeCommand s.cfg.hasTune word = .tune per maxd) →
        core.run 4
          (setInbox (.pollApplyPeriod word :: .pollApplyCap :: .pollRdfb :: .pollRdref :: rest) s) =
          .next t))

/-- R212, R71: with a SAMPLE between the two reads, the published word pairs the feedback of the cycle
before with the reference of the cycle after. The inbox and the event word's layout are the model's (log
entries 3, 5). -/
def Obligations.SampleBetweenReadsTearsTheStatusWord : Prop :=
  ∀ (w : Nat) (fbRaw refRaw : Sample) (rest : List Input) (s : State),
    s.cfg.wf = true → s.boot = .running → s.control = .idle → s.samplePending = false →
    s.polling = .applied → decode s.cfg (.event w) = .ok (.sample fbRaw refRaw) →
    ∃ t,
      core.run 3 (setInbox (.pollRdfb :: .event w :: .pollRdref :: rest) s) = .next t ∧
      t.inbox = rest ∧
      t.status = statusWord s.cfg s.controller.filteredFeedback t.controller.filteredReference ∧
      t.controller.filteredReference = iir s.cfg s.controller.filteredReference refRaw

/-- R70 (iii), R208: a SAMPLE between opcode 4's two writes sees the new period with the old cap. The inbox
and the event word's layout are the model's (log entries 3, 5). -/
def Obligations.SampleInsideTuneSeesTheTornPair : Prop :=
  ∀ (word : Word) (per maxd : Byte) (w : Nat) (fbRaw refRaw : Sample) (rest : List Input) (s : State),
    s.cfg.wf = true → pollTurn s = true → s.samplePending = false →
    decodeCommand s.cfg.hasTune word = .tune per maxd →
    decode s.cfg (.event w) = .ok (.sample fbRaw refRaw) →
    ∃ t,
      core.run 3 (setInbox (.pollApplyPeriod word :: .event w :: .pollApplyCap :: rest) s) = .next t ∧
      t.inbox = rest ∧ t.polling = .applied ∧ t.period.toNat = per.toNat ∧ t.dutyCap = maxd ∧
      t.controller.maxDuty = maxDutyOf s.cfg t.controller.filteredReference t.period s.dutyCap

/-! ## FADE -/

/-- R175, R177: a FADE at its turn completes. A mask equal to the last applied one writes nothing to the
bus; a different one puts all-off, the hold and then the mask on it. Nothing else changes. The hold as an
output mark is the model's (log entry 6). -/
def Obligations.FadeAppliesTheMaskThroughTheGap : Prop :=
  ∀ (ts : Nat) (s : State), fadeTurn s = true →
    (fadeEval s.fade (phase s.cfg ts) = s.fade.lastAppliedMask →
      exec (.fade ts) s = .next { s with mainPhase := .poll }) ∧
    (fadeEval s.fade (phase s.cfg ts) ≠ s.fade.lastAppliedMask →
      ∃ t, exec (.fade ts) s = .next t ∧
        t.outMask = fadeEval s.fade (phase s.cfg ts) ∧
        t = { s with
          outMask := t.outMask,
          fade := { s.fade with lastAppliedMask := t.outMask },
          outputs := s.outputs ++ [.digitBus 0, .gapHold s.cfg.gapHold, .digitBus t.outMask],
          mainPhase := .poll })

/-- R173, R174: which mask each phase shows, by unsigned comparison with the thresholds as stored; with
`t0 > t1`, `mask_b` is never shown. -/
def Obligations.FadeEvalFollowsTheThresholds : Prop :=
  ∀ (f : FadeState) (p : Byte),
    (f.fadeEnabled = false → fadeEval f p = f.maskA) ∧
    (f.fadeEnabled = true →
      (p.toNat < f.threshold0.toNat → fadeEval f p = f.maskA) ∧
      (f.threshold0.toNat ≤ p.toNat → p.toNat < f.threshold1.toNat → fadeEval f p = f.maskB) ∧
      (f.threshold0.toNat ≤ p.toNat → f.threshold1.toNat ≤ p.toNat → fadeEval f p = 0) ∧
      (f.threshold1.toNat < f.threshold0.toNat → fadeEval f p = f.maskA ∨ fadeEval f p = 0))

/-- R174: over one outer cycle of 256 phases with `t0 <= t1`, `mask_a` is shown for `t0` phases, `mask_b` for
`t1 - t0` and all-off for `256 - t1`. -/
def Obligations.BrightnessSharesOfOneCycle : Prop :=
  ∀ f : FadeState, f.fadeEnabled = true → f.threshold0.toNat ≤ f.threshold1.toNat →
    f.maskA ≠ f.maskB → f.maskA ≠ 0 → f.maskB ≠ 0 →
    (List.range 256).countP (fun n => fadeEval f (BitVec.ofNat 8 n) == f.maskA) = f.threshold0.toNat ∧
    (List.range 256).countP (fun n => fadeEval f (BitVec.ofNat 8 n) == f.maskB) =
      f.threshold1.toNat - f.threshold0.toNat ∧
    (List.range 256).countP (fun n => fadeEval f (BitVec.ofNat 8 n) == 0) = 256 - f.threshold1.toNat

/-- R172: the phase is the eight bits of the timestamp from `TS_SHIFT` up, rotated left by `DITHER_ROT`; any
256 consecutive values of the dither counter give each phase value exactly once. -/
def Obligations.PhaseVisitsEveryValueOncePerCycle : Prop :=
  ∀ c : Config, c.ditherRot ≤ 7 →
    (∀ ts d : Nat, d = ts / 2 ^ c.tsShift % 256 →
      (phase c ts).toNat = d * 2 ^ c.ditherRot % 256 + d / 2 ^ (8 - c.ditherRot)) ∧
    ∀ (start : Nat) (p : Byte), ∃! n, n < 256 ∧ phase c ((start + n) * 2 ^ c.tsShift) = p

/-- R170, E2: in an accepted configuration the lookup is injective on codes 1 to 12 with one-hot values, and
gives all-off for code 0 and for codes 13 to 15. -/
def Obligations.DigitMaskIsInjectiveAndOneHot : Prop :=
  ∀ c : Config, c.wf = true →
    (∀ code : Nibble, code = 0 ∨ 12 < code.toNat → digitMask c code = 0) ∧
    (∀ code : Nibble, 1 ≤ code.toNat → code.toNat ≤ 12 →
      ∃! n : Fin 16, digitMask c code = 1#16 <<< n.val) ∧
    (∀ a b : Nibble, 1 ≤ a.toNat → a.toNat ≤ 12 → 1 ≤ b.toNat → b.toNat ≤ 12 →
      digitMask c a = digitMask c b → a = b)

/-- R178, R70: a SAMPLE before or after a FADE gives the same registers, and each of the two the same output
events, `a` and `b`; only their order differs. A SAMPLE during FADE's hold gives those registers too, with its
output events inside the gap, so the bus sees the same writes in the same order. The hold as an output mark,
the inbox and FADE's two halves are the model's (log entries 5, 6, 13). -/
def Obligations.SampleAndFadeCommute : Prop :=
  ∀ (ts : Nat) (fbRaw refRaw : Sample) (s : State), fadeTurn s = true →
    ∃ t u t' u' a b,
      exec (.sample fbRaw refRaw) s = .next t ∧ exec (.fade ts) t = .next u ∧
      exec (.fade ts) s = .next t' ∧ exec (.sample fbRaw refRaw) t' = .next u' ∧
      t.outputs = s.outputs ++ a ∧ t'.outputs = s.outputs ++ b ∧
      u.outputs = s.outputs ++ a ++ b ∧ u'.outputs = s.outputs ++ b ++ a ∧
      u' = { u with outputs := u'.outputs } ∧
      ∀ (w : Nat) (rest : List Input),
        s.cfg.wf = true → s.samplePending = false → ts < 2 ^ s.cfg.tsBits →
        decode s.cfg (.event w) = .ok (.sample fbRaw refRaw) →
        fadeEval s.fade (phase s.cfg ts) ≠ s.fade.lastAppliedMask →
        b = [.digitBus 0, .gapHold s.cfg.gapHold, .digitBus u.outMask] ∧
        core.run 3 (setInbox (.fadeBegin ts :: .event w :: .fadeEnd :: rest) s) =
          .next { u with
            inbox := rest,
            outputs := s.outputs ++ [.digitBus 0, .gapHold s.cfg.gapHold] ++ a ++ [.digitBus u.outMask] }

/-! ## SAMPLE: the filters -/

/-- R104 (a): a filter that starts in `[0, R << K]` and sees samples of at most `R` stays there. -/
def Obligations.FilterStaysInRange : Prop :=
  ∀ (c : Config) (f : Word) (r : Sample) (bound : Nat), c.k ≤ 6 → bound ≤ 1023 → r.toNat ≤ bound →
    0 ≤ f.toInt → f.toInt ≤ bound * 2 ^ c.k →
    0 ≤ (iir c f r).toInt ∧ (iir c f r).toInt ≤ bound * 2 ^ c.k

/-- R104 (b): the fixed points under a constant input `r` are exactly the interval
`[r << K, (r << K) + 2^K - 1]`. -/
def Obligations.FilterFixedPointsAreAnInterval : Prop :=
  ∀ (c : Config) (f : Word) (r : Sample), c.k ≤ 6 →
    (iir c f r = f ↔
      (r.toNat : Int) * 2 ^ c.k ≤ f.toInt ∧ f.toInt ≤ (r.toNat : Int) * 2 ^ c.k + 2 ^ c.k - 1)

/-- R104 (c), (d): under a constant input, from below the filter arrives at exactly `r << K`, never above it;
from above it falls to within `2^K` of it and stays there. -/
def Obligations.FilterConvergesUnderConstantInput : Prop :=
  ∀ (c : Config) (r : Sample) (f : Word), c.k ≤ 6 →
    (f.toInt ≤ (r.toNat : Int) * 2 ^ c.k →
      (∀ m : Nat, ((fun x => iir c x r)^[m] f).toInt ≤ (r.toNat : Int) * 2 ^ c.k) ∧
      ∃ n : Nat, ∀ m ≥ n, ((fun x => iir c x r)^[m] f).toInt = (r.toNat : Int) * 2 ^ c.k) ∧
    ((r.toNat : Int) * 2 ^ c.k < f.toInt →
      ∃ n : Nat, ∀ m ≥ n,
        (r.toNat : Int) * 2 ^ c.k ≤ ((fun x => iir c x r)^[m] f).toInt ∧
        ((fun x => iir c x r)^[m] f).toInt < (r.toNat : Int) * 2 ^ c.k + 2 ^ c.k)

/-! ## SAMPLE: compensation -/

/-- R146: the shift-and-add multiply gives the exact product. -/
def Obligations.SoftwareMultiplyIsExact : Prop :=
  ∀ x y : Half, (swmul x y).toNat = x.toNat * y.toNat

/-- R147: its loop runs `bitlen(min(x, y))` times, at most 16. -/
def Obligations.SoftwareMultiplyIterationCount : Prop :=
  ∀ x y : Half,
    swmulIterations x y = bitlen (min x.toNat y.toNat) ∧ swmulIterations x y ≤ 16

/-- R142: for a filtered reference in range, `MaxDuty` is the integer shift sum clamped to
`[0, min(period, duty_cap)]`; the bounds hold for every reference. -/
def Obligations.MaxDutyIsTheClampedShiftSum : Prop :=
  ∀ (c : Config) (fr : Word) (period : Half) (dutyCap : Byte),
    (0 ≤ (maxDutyOf c fr period dutyCap).toInt ∧
      (maxDutyOf c fr period dutyCap).toInt ≤ min period.toNat dutyCap.toNat) ∧
    (c.k ≤ 6 → inFilterRange c fr →
      (maxDutyOf c fr period dutyCap).toInt =
        clampInt (maxDutyInt c (fr.toInt / 2 ^ c.k)) 0 (min period.toNat dutyCap.toNat))

/-- R143: the golden values, for every accepted configuration with the document's shifts 2, 6, 7 whose limit
lets them through. -/
def Obligations.MaxDutyGoldenValues : Prop :=
  ∀ (c : Config) (fr : Word) (period : Half) (dutyCap : Byte),
    c.wf = true → c.mdA = 2 → c.mdB = 6 → c.mdC = 7 → 86 ≤ min period.toNat dutyCap.toNat →
    (postShift c fr = 0x175 → maxDutyOf c fr period dutyCap = 86) ∧
    (postShift c fr = 0xF0 → maxDutyOf c fr period dutyCap = 56)

/-- R148: under condition W, for a filtered reference in range and a target within `MAX_TARGET`, `CompTarget`
is the exact product's shift sum, and it does not wrap. -/
def Obligations.CompTargetIsTheExactShiftSum : Prop :=
  ∀ (c : Config) (fr : Word) (target : Half),
    c.wf = true → inFilterRange c fr → target.toNat ≤ c.maxTarget.toNat →
    (compTarget c fr target).toInt = compTargetNat c (fr.toNat * target.toNat) ∧
    0 ≤ (compTarget c fr target).toInt ∧ (compTarget c fr target).toInt ≤ c.ctMax

/-! ## SAMPLE: the control law -/

/-- R100: a SAMPLE that is taken completes: each register it writes holds what the step of the pseudocode
gives, each step seeing the writes before it; its outputs are one duty write and then one pet; nothing else
changes but the environment's side of those two (the timer's compare buffer, the watchdog's clock, the pairs
seen). Those fields are the model's (log entries 10, 11, 12). -/
def Obligations.SampleRunsTheControlCycle : Prop :=
  ∀ (fbRaw refRaw : Sample) (s : State), sampleMayStart s = true → ∃ t,
    exec (.sample fbRaw refRaw) s = .next t ∧
    t.controller.filteredFeedback = iir s.cfg s.controller.filteredFeedback fbRaw ∧
    t.controller.filteredReference = iir s.cfg s.controller.filteredReference refRaw ∧
    t.controller.maxDuty = maxDutyOf s.cfg t.controller.filteredReference s.period s.dutyCap ∧
    t.controller.compensatedTarget =
      compTarget s.cfg t.controller.filteredReference s.controller.target ∧
    t.controller.previousError = t.controller.compensatedTarget - t.controller.filteredFeedback ∧
    t.controller.integral = nextIntegral s.cfg s.controller.integral t.controller.previousError ∧
    t.controller.dutyCommand =
      clamp (plantOutput s.cfg t.controller.previousError t.controller.integral
        (dTerm s.cfg t.controller.previousError s.controller.previousError)) 0 t.controller.maxDuty ∧
    t.switchCompare = t.controller.dutyCommand.extractLsb' 0 16 ∧
    t = { s with
      controller := { t.controller with target := s.controller.target },
      samplePending := false, switchCompare := t.switchCompare, sincePet := 0, results := [],
      outputs := s.outputs ++ [.switchDuty t.switchCompare, .wdtPet] }

/-- R8, R100 to R111: from a state in the registers' ranges, under an accepted configuration, no intermediate
value of a control cycle wraps: every register it writes is the exact integer the formulas give. -/
def Obligations.ControlCycleIsExactUnderConditionW : Prop :=
  ∀ (c : Config) (k : ControllerState) (period : Half) (dutyCap : Byte) (fbRaw refRaw : Sample),
    c.wf = true → ControllerInv c k →
    ExactCycle c k period dutyCap fbRaw refRaw (controlLaw c k period dutyCap fbRaw refRaw) ∧
    ControllerInv c (controlLaw c k period dutyCap fbRaw refRaw)

/-- R111: in every state, of any configuration and even where values wrap, a SAMPLE leaves
`0 <= duty_command <= max_duty`. -/
def Obligations.DutyStaysWithinMaxDuty : Prop :=
  ∀ (c : Config) (k : ControllerState) (period : Half) (dutyCap : Byte) (fbRaw refRaw : Sample),
    0 ≤ (controlLaw c k period dutyCap fbRaw refRaw).dutyCommand.toInt ∧
    (controlLaw c k period dutyCap fbRaw refRaw).dutyCommand.toInt ≤
      (controlLaw c k period dutyCap fbRaw refRaw).maxDuty.toInt

/-- R107: after a SAMPLE under an accepted configuration, the integral lies in its window; driven past an end
of it, it is exactly that end. -/
def Obligations.IntegralSaturatesAtItsWindow : Prop :=
  ∀ (c : Config) (integral error : Word),
    c.wf = true → (integral = 0 ∨ inIntegralWindow c integral) →
    -(c.eMax : Int) ≤ error.toInt → error.toInt ≤ c.eMax →
    inIntegralWindow c (nextIntegral c integral error) ∧
    (c.iMax * 2 ^ c.k < integral.toInt + error.toInt →
      (nextIntegral c integral error).toInt = c.iMax * 2 ^ c.k) ∧
    (integral.toInt + error.toInt < c.iMin * 2 ^ c.k →
      (nextIntegral c integral error).toInt = c.iMin * 2 ^ c.k) ∧
    (c.iMin * 2 ^ c.k ≤ integral.toInt + error.toInt → integral.toInt + error.toInt ≤ c.iMax * 2 ^ c.k →
      (nextIntegral c integral error).toInt = integral.toInt + error.toInt)

/-- R113: what a SAMPLE writes and drives depends only on the registers it reads and the sample pair: two
states that agree on those, whatever else they hold, end with the same ControllerState and make the same
outputs. -/
def Obligations.SampleDependsOnlyOnItsInputs : Prop :=
  ∀ (fbRaw refRaw : Sample) (s s' : State), sampleMayStart s = true → sampleMayStart s' = true →
    s'.cfg = s.cfg →
    s'.controller.filteredFeedback = s.controller.filteredFeedback →
    s'.controller.filteredReference = s.controller.filteredReference →
    s'.controller.integral = s.controller.integral →
    s'.controller.previousError = s.controller.previousError →
    s'.controller.target = s.controller.target → s'.period = s.period → s'.dutyCap = s.dutyCap →
    ∃ t t' new,
      exec (.sample fbRaw refRaw) s = .next t ∧ exec (.sample fbRaw refRaw) s' = .next t' ∧
      t'.controller = t.controller ∧
      t.outputs = s.outputs ++ new ∧ t'.outputs = s'.outputs ++ new

/-- R274 (a), where the derivative is absent: with target 0, `I_MIN <= 0` and an integral not above 0, a SAMPLE
leaves the compensated target 0, the error and the integral not above 0, and the duty 0. -/
def Obligations.ConverterStaysOffWithoutTarget : Prop :=
  ∀ (fbRaw refRaw : Sample) (s : State), Inv s → sampleMayStart s = true →
    s.cfg.dMode = .none → s.controller.target = 0 → s.cfg.iMin ≤ 0 → s.controller.integral.toInt ≤ 0 →
    ∃ t, exec (.sample fbRaw refRaw) s = .next t ∧
      t.controller.compensatedTarget = 0 ∧ t.controller.previousError.toInt ≤ 0 ∧
      t.controller.integral.toInt ≤ 0 ∧ t.controller.dutyCommand = 0 ∧
      t.outputs = s.outputs ++ [.switchDuty 0, .wdtPet]

/-- R114: the worked example, from a booted reset state with `target = 150`. -/
def Obligations.WorkedSampleExample : Prop :=
  ∃ t,
    exec (.sample 100 373)
      { State.reset with
        boot := .running, controller := { State.reset.controller with target := 150 } } = .next t ∧
    t.controller =
      { target := 150, filteredFeedback := 100, filteredReference := 373, integral := 370,
        compensatedTarget := 470, maxDuty := 22, dutyCommand := 22, previousError := 370 } ∧
    t.outputs = State.reset.outputs ++ [.switchDuty 22, .wdtPet]

/-- R45 (b), R283, R284: whatever a TUNE sets, the SAMPLE after it leaves `duty_command` and `max_duty` within
the new period and the new cap; the TUNE itself changes neither, nor the duty on the switch. -/
def Obligations.SampleAfterTuneObeysTheNewLimits : Prop :=
  ∀ (per maxd : Byte) (fbRaw refRaw : Sample) (s : State), s.cfg.hasTune = true →
    sampleMayStart s = true →
    ∃ t u, exec (.tune per maxd) s = .next t ∧ exec (.sample fbRaw refRaw) t = .next u ∧
      t.controller = s.controller ∧ t.switchCompare = s.switchCompare ∧
      u.controller.maxDuty.toInt ≤ min per.toNat maxd.toNat ∧
      u.controller.dutyCommand.toInt ≤ min per.toNat maxd.toNat

/-! ## Interrupt, watchdog, timer -/

/-- R242, R243, R272: a conversion that completes sets `sample_pending` when the interrupt is enabled and
none is pending or being served; otherwise it is lost: it changes nothing but the pairs the sampler has
produced. So, along any run whose inputs keep the environment's premises (R102, R276, R291), the SAMPLEs that
end are at most as many as the switching periods: one for the period the run starts in, where its conversion is
still due, and one for each period that begins. Keeping the pairs, inputs as a list, and that no RESET begins a
period, are the model's (log entries 10, 5, 21). -/
def Obligations.ConversionSetsPendingOrIsLost : Prop :=
  (∀ (fbRaw refRaw : Sample) (rest : List Input) (s : State), s.cfg.wf = true →
    ∃ t, step (setInbox (.conversion fbRaw refRaw :: rest) s) = .next t ∧
      t.samplePending =
        (s.samplePending || (decide (s.boot = .running) && decide (s.control = .idle))) ∧
      t.results = s.results ++ [(fbRaw, refRaw)] ∧
      t = { s with inbox := rest, samplePending := t.samplePending, results := t.results }) ∧
  ∀ (n : Nat) (due : Bool) (s t : State), s.samplePending = false → s.control = .idle →
    environmentPremises s.cfg due s.inbox = true → core.run n s = .next t →
    ∃ used, s.inbox = used ++ t.inbox ∧
      t.outputs.count .wdtPet ≤
        s.outputs.count .wdtPet + due.toNat + used.count .periodBoundary

/-- R244, R246: with a conversion pending, the next polling input waits: the step takes the interrupt on a
pair the sampler produced, changing no block register but `sample_pending`, and the input stays. The
progress and the pairs are the model's fields (log entries 9, 10). -/
def Obligations.PendingInterruptIsTakenFirst : Prop :=
  ∀ (inp : Input) (rest : List Input) (s : State),
    s.cfg.wf = true → s.boot = .running → s.control = .idle → s.samplePending = true → s.results ≠ [] →
    s.inbox = inp :: rest → takenAtOnce s.cfg inp = false →
    ∃ t p, step s = .next t ∧ p ∈ s.results ∧ t.control = .running p.1 p.2 ∧
      t = { s with
        samplePending := false, control := t.control, results := [], draws := t.draws }

/-- R246, R247: the three steps that serve a pending conversion end with the polling context resuming where
it was: its input still next, its progress and every register it owns unchanged; the interrupt's own SAMPLE
is the one `exec` gives. The pairs and the draw counter are the model's fields (log entry 10). -/
def Obligations.InterruptedPollingResumes : Prop :=
  ∀ (inp : Input) (rest : List Input) (s : State),
    s.cfg.wf = true → s.boot = .running → s.control = .idle → s.samplePending = true → s.results ≠ [] →
    s.inbox = inp :: rest → takenAtOnce s.cfg inp = false →
    ∃ t u p, core.run 3 s = .next t ∧ p ∈ s.results ∧ exec (.sample p.1 p.2) s = .next u ∧
      t = { u with draws := t.draws } ∧ t.inbox = inp :: rest ∧ samePollingRegisters s t

/-- R69: while a SAMPLE runs, no step changes a register or the progress of the polling context, except a
RESET. The progress fields are the model's (log entry 9). -/
def Obligations.NothingPollsDuringASample : Prop :=
  ∀ s t : State, s.control ≠ .idle → step s = .next t →
    samePollingRegisters s t ∨ t = resetOperation (setInbox t.inbox s)

/-- R244, R245 (a), R271: a RESET event is taken at once from every state of an accepted configuration,
whatever is in progress or pending, and leaves no trace of it. The inbox, the outputs and the draw counter
are the model's fields (log entries 5, 6, 10). -/
def Obligations.ResetWinsOverEverything : Prop :=
  ∀ (rest : List Input) (s : State), s.cfg.wf = true →
    ∃ t, step (setInbox (.event 3 :: rest) s) = .next t ∧
      t = { State.resetOf s.cfg with
        inbox := rest, outputs := s.outputs ++ resetOutputs s.cfg, draws := s.draws }

/-- R250, E10: once the watchdog is armed, `WDT_TIMEOUT` clock units without a pet reset the device. The
simulated clock is the model's (log entry 11). -/
def Obligations.WatchdogResetsAfterTimeout : Prop :=
  ∀ (n : Nat) (rest : List Input) (s : State),
    s.cfg.wf = true → watchdogArmed s = true → 0 < n → s.sincePet + n = s.cfg.wdtTimeout →
    core.run n (setInbox (List.replicate n .tick ++ rest) s) =
      .next (resetOperation (setInbox rest s))

/-- R112: an operation pulses `wdt_pet` exactly once if it is a SAMPLE that is taken, and never otherwise. -/
def Obligations.OnlySamplePetsTheWatchdog : Prop :=
  ∀ (i : Instr) (s t : State), exec i s = .next t →
    t.outputs.count .wdtPet =
      s.outputs.count .wdtPet +
        (match i with | .sample _ _ => (if sampleMayStart s = true then 1 else 0) | _ => 0)

/-- R252: the watchdog's clock falls back only by a pet, by the arming in boot, or by RESET: no run of
polling alone keeps it from running out. The simulated clock is the model's (log entry 11). -/
def Obligations.PollingNeverFeedsTheWatchdog : Prop :=
  ∀ s t : State, step s = .next t → t.sincePet < s.sincePet →
    t.outputs.count .wdtPet = s.outputs.count .wdtPet + 1 ∨ t.boot ≠ .running

/-- R101, R280: a SAMPLE's duty stands in the compare buffer and leaves the compare in force alone; the next
period boundary brings it into force. The two compare registers are the model's fields (log entry 12). -/
def Obligations.DutyGovernsTheNextPeriod : Prop :=
  ∀ (fbRaw refRaw : Sample) (rest : List Input) (s : State), s.cfg.wf = true → sampleMayStart s = true →
    ∃ t u, exec (.sample fbRaw refRaw) s = .next t ∧
      t.switchActive = s.switchActive ∧
      step (setInbox (.periodBoundary :: rest) t) = .next u ∧
      u.switchActive = t.controller.dutyCommand.extractLsb' 0 16 ∧
      u = { t with inbox := rest, switchActive := u.switchActive, draws := u.draws }

/-! ## RESET and boot -/

/-- R47, R270: RESET completes in every state; each register holds its value of R47's table, the five ports
are driven in order, and the boot sequence begins. The configuration, the inputs still to come and the
outputs so far stay. The progress fields are the model's (log entry 8). -/
def Obligations.ResetGivesEveryRegisterItsValue : Prop :=
  ∀ s : State, ∃ t, exec .reset s = .next t ∧
    t.controller =
      { target := 0, filteredFeedback := 0, filteredReference := 0, integral := 0,
        compensatedTarget := 0, maxDuty := 0, dutyCommand := 0, previousError := 0 } ∧
    t.fade =
      { maskA := 0, maskB := 0, threshold0 := 0, threshold1 := 0, fadeEnabled := false,
        lastAppliedMask := 0 } ∧
    t.period = s.cfg.periodDefault ∧ t.dutyCap = 0xFF ∧ t.auxDuty = 0 ∧ t.outMask = 0 ∧ t.status = 0 ∧
    t.samplePending = false ∧ t.mainPhase = .poll ∧ t.polling = .between ∧ t.control = .idle ∧
    t.boot = .registersReset ∧
    t.outputs = s.outputs ++
      [.switchDuty 0, .switchPeriod s.cfg.periodDefault, .digitBus 0, .auxDuty 0, .statusWord 0] ∧
    t.cfg = s.cfg ∧ t.inbox = s.inbox

/-- R275: after RESET, with nothing to do outside, the boot sequence takes four steps: it arms the watchdog,
issues `startSampling` once, enables the interrupt and leaves every register at its reset value. The staging
is the model's (log entry 8). -/
def Obligations.BootStartsSamplingOnce : Prop :=
  ∀ s : State, s.cfg.wf = true → s.boot = .registersReset → s.control = .idle → s.inbox = [] →
    core.run 4 s =
      .next { s with boot := .running, sincePet := 0, outputs := s.outputs ++ [.sampleStart] } ∧
    ∀ t, core.run 1 s = .next t → t.boot = .platformReady ∧ watchdogArmed t = false ∧
      ∀ u, core.run 1 t = .next u → watchdogArmed u = true ∧ interruptEnabled u = false

/-! ## The machine -/

/-- R90, R93: when the next input is an event word that decodes to `i`, and the core has no work of its own
or `i` is RESET, the step is exactly `exec i` on the state with that input taken out of the inbox. The inbox
is the model's (log entry 5). -/
def Obligations.StepRunsTheDecodedEvent : Prop :=
  ∀ (w : Nat) (rest : List Input) (i : Instr) (s : State),
    s.cfg.wf = true → s.inbox = .event w :: rest → decode s.cfg (.event w) = .ok i →
    (i = .reset ∨ (s.boot = .running ∧ s.control = .idle ∧ s.samplePending = false)) →
    step s = exec i (setInbox rest s)

/-- R202, R93: when the next input is a fresh command word in a POLL's first micro-step, at its turn and
with nothing pending, the step is exactly `exec` of the decoded command, with the micro-step marked done.
The inbox is the model's (log entry 5). -/
def Obligations.StepRunsTheDecodedCommand : Prop :=
  ∀ (word : Word) (rest : List Input) (i : Instr) (s : State),
    s.cfg.wf = true → s.inbox = .pollApply true word :: rest → decode s.cfg (.command word) = .ok i →
    pollTurn s = true → s.samplePending = false →
    ∃ t, exec i (setInbox rest s) = .next t ∧ step s = .next (setPolling .applied t)

/-- R45, R23 to R39, R70: every step keeps the machine's invariant. The sequencing part is about the model's
own fields (log entries 8 to 12). -/
def Obligations.StepKeepsTheInvariant : Prop :=
  ∀ s t : State, Inv s → step s = .next t → Inv t

/-- R45, R47, R176: the state after reset meets the invariant, for every accepted configuration, and the
guard, for every configuration. -/
def Obligations.ResetMeetsInvariantAndGuard : Prop :=
  (Inv State.reset ∧ ∀ c : Config, c.wf = true → Inv (State.resetOf c)) ∧
  (GuardInv State.reset ∧ ∀ c : Config, GuardInv (State.resetOf c))

/-- R176 (a), R38, R285: every step keeps the guard: along the output events, a non-zero mask comes only
after an all-off mask held for at least `GAP_HOLD`, and the bus as observed is `out_mask`. The hold as an
output mark is the model's (log entry 6). -/
def Obligations.StepKeepsTheTransitionGuard : Prop :=
  ∀ s t : State, GuardInv s → step s = .next t → GuardInv t

/-- R46: no operation but RESET crosses the ownership of registers: POLL, FADE and the commands leave the control
context's registers alone, SAMPLE leaves the polling context's alone. -/
def Obligations.OperationsKeepToTheirOwnRegisters : Prop :=
  ∀ (i : Instr) (s t : State), exec i s = .next t →
    match i with
    | .sample _ _ => samePollingRegisters s t
    | .reset => True
    | _ => sameControlRegisters s t

/-- R6, R13: no step changes the configuration, and every step only adds to the output events. Keeping both
in the state is the model's (log entries 1, 6). -/
def Obligations.StepKeepsConfigurationAndHistory : Prop :=
  ∀ s t : State, step s = .next t → t.cfg = s.cfg ∧ ∃ new, t.outputs = s.outputs ++ new

/-- R7: a configuration that breaks a condition of the rule is refused by every step. -/
def Obligations.BrokenConfigurationsAreRefused : Prop :=
  ∀ s : State,
    s.cfg.iMax < s.cfg.iMin ∨
    (31 < s.cfg.pShift ∨ 31 < s.cfg.iShift ∨ 31 < s.cfg.dShift ∨ 31 < s.cfg.mdA ∨ 31 < s.cfg.mdB ∨
      31 < s.cfg.mdC ∨ 31 < s.cfg.ctS1 ∨ 31 < s.cfg.ctS2 ∨
      31 < s.cfg.tsShift ∨ 31 < s.cfg.ditherRot ∨ ∃ n, s.cfg.ctS3 = some n ∧ 31 < n) ∨
    6 < s.cfg.k ∨
    (s.cfg.digitMasks.length ≠ 12 ∨ ¬ s.cfg.digitMasks.Nodup ∨
      ∃ m ∈ s.cfg.digitMasks, ∀ n < 16, m ≠ 1#16 <<< n) ∨
    s.cfg.noWrap = false →
    step s = .refused .badConfiguration
end

