-- ==== Sys2Proof/Laws/Arithmetic.lean ====
section
/-! SUPPORT. What the primitives of spec/00_scope.md R10 to R12 and the pure functions over them compute, over
the integers: one lemma each, so that no later proof unfolds them. -/

namespace Sys2Proof.Machine

open Sys2Proof

/-! ## The primitives -/

theorem bmod_of_range (n : Int) (hlo : -2147483648 ≤ n) (hhi : n < 2147483648) :
    Int.bmod n (2 ^ 32) = n := by
  unfold Int.bmod
  norm_num
  split_ifs <;> omega

theorem add_toInt (x y : Word) (hlo : -2147483648 ≤ x.toInt + y.toInt)
    (hhi : x.toInt + y.toInt < 2147483648) : (x + y).toInt = x.toInt + y.toInt := by
  rw [BitVec.toInt_add, bmod_of_range _ hlo hhi]

theorem sub_toInt (x y : Word) (hlo : -2147483648 ≤ x.toInt - y.toInt)
    (hhi : x.toInt - y.toInt < 2147483648) : (x - y).toInt = x.toInt - y.toInt := by
  rw [BitVec.toInt_sub, bmod_of_range _ hlo hhi]

/-- `>>a` is the floor of the quotient (R11). -/
theorem sar_toInt (x : Word) (n : Nat) : (sar x n).toInt = x.toInt / 2 ^ n := by
  simp [sar, BitVec.toInt_sshiftRight, Int.shiftRight_eq_div_pow]

theorem shr_toNat (x : Word) (n : Nat) : (shr x n).toNat = x.toNat / 2 ^ n := by
  simp [shr, Nat.shiftRight_eq_div_pow]

theorem shl_toInt (x : Word) (n : Nat) (hlo : -2147483648 ≤ x.toInt * 2 ^ n)
    (hhi : x.toInt * 2 ^ n < 2147483648) : (shl x n).toInt = x.toInt * 2 ^ n := by
  rw [shl, BitVec.toInt_shiftLeft, Nat.shiftLeft_eq, ← bmod_of_range _ hlo hhi]
  conv_rhs => rw [BitVec.toInt_eq_toNat_bmod]
  push_cast
  norm_num

theorem zext32_toNat {n : Nat} (hn : n ≤ 16) (x : BitVec n) : (zext32 x).toNat = x.toNat := by
  have h : x.toNat < 2 ^ 16 := lt_of_lt_of_le x.isLt (Nat.pow_le_pow_right (by omega) hn)
  simp [zext32]
  omega

theorem zext32_toInt {n : Nat} (hn : n ≤ 16) (x : BitVec n) : (zext32 x).toInt = x.toNat := by
  have h : x.toNat < 2 ^ 16 := lt_of_lt_of_le x.isLt (Nat.pow_le_pow_right (by omega) hn)
  rw [BitVec.toInt_eq_toNat_cond, zext32_toNat hn]
  split_ifs <;> omega

theorem toNat_of_nonneg {x : Word} (h : 0 ≤ x.toInt) : (x.toNat : Int) = x.toInt := by
  rw [BitVec.toInt_eq_toNat_cond] at *
  split_ifs at * <;> omega

theorem clamp_toInt (x lo hi : Word) : (clamp x lo hi).toInt = clampInt x.toInt lo.toInt hi.toInt := by
  unfold clamp clampInt
  simp only [BitVec.slt, decide_eq_true_eq]
  split_ifs <;> rfl

theorem clampInt_bounds {x lo hi : Int} (h : lo ≤ hi) : lo ≤ clampInt x lo hi ∧ clampInt x lo hi ≤ hi := by
  unfold clampInt
  split_ifs <;> omega

theorem minHalf_toNat (x y : Half) : (minHalf x y).toNat = min x.toNat y.toNat := by
  unfold minHalf
  simp only [BitVec.ule, decide_eq_true_eq]
  split <;> omega

/-! ## The functions of a SAMPLE -/

/-- `f - floor(f / P)` does not decrease as `f` grows (R104 (a)). -/
theorem sub_ediv_mono {P x y : Int} (hP : 1 ≤ P) (h : x ≤ y) : x - x / P ≤ y - y / P := by
  have h1 : y ≤ x + (y - x) * P := by nlinarith
  have h2 := Int.ediv_le_ediv (by omega : 0 < P) h1
  rw [Int.add_mul_ediv_right _ _ (by omega)] at h2
  omega

/-- The filter never wraps, on any value (R103; `K <= 6`). -/
theorem iir_toInt (c : Config) (f : Word) (r : Sample) (hk : c.k ≤ 6) :
    (iir c f r).toInt = f.toInt - f.toInt / 2 ^ c.k + r.toNat := by
  have h1 := f.toInt_lt
  have h2 := f.le_toInt
  have h3 := r.isLt
  norm_num at h1 h2
  rw [iir, BitVec.toInt_add, BitVec.toInt_sub, sar_toInt, zext32_toInt (by omega)]
  generalize c.k = k at *
  interval_cases k <;>
    rw [bmod_of_range (f.toInt - _) (by omega) (by omega), bmod_of_range _ (by omega) (by omega)]

theorem dutyLimit_toInt (period : Half) (dutyCap : Byte) :
    (dutyLimit period dutyCap).toInt = min period.toNat dutyCap.toNat := by
  have hp := zext32_toNat (by omega) period
  have hc := zext32_toNat (by omega) dutyCap
  have hp' := zext32_toInt (by omega) period
  have hc' := zext32_toInt (by omega) dutyCap
  unfold dutyLimit minWord
  simp only [BitVec.ule, decide_eq_true_eq, hp, hc]
  split_ifs <;> rw [Nat.cast_min] <;> omega

/-- Post-shift of a non-negative filtered value (R141, R211). -/
theorem postShift_toNat (c : Config) {f : Word} (h : 0 ≤ f.toInt) :
    (postShift c f).toNat = f.toNat / 2 ^ c.k := by
  have e := sar_toInt f c.k
  have h1 : 0 ≤ (sar f c.k).toInt := by rw [e]; positivity
  have h2 := toNat_of_nonneg h1
  have h3 := toNat_of_nonneg h
  unfold postShift
  zify
  rw [h2, e, h3]

/-- R144: with shifts 2, 6 and 7, the shift sum lies within 2 above `floor(29 v / 128)`. -/
theorem maxDutyInt_bracket {c : Config} (ha : c.mdA = 2) (hb : c.mdB = 6) (hc : c.mdC = 7)
    (v : Int) : 29 * v / 128 ≤ maxDutyInt c v ∧ maxDutyInt c v ≤ 29 * v / 128 + 2 := by
  unfold maxDutyInt
  rw [ha, hb, hc]
  omega

/-- R149: with shifts 7, 11 and 13, the compensated target lies within 2 below `floor(num * 69 / 8192)`. -/
theorem compTargetNat_bracket {c : Config} (h1 : c.ctS1 = 7) (h2 : c.ctS2 = 11) (h3 : c.ctS3 = some 13)
    (num : Nat) : num * 69 / 8192 ≤ compTargetNat c num + 2 ∧ compTargetNat c num ≤ num * 69 / 8192 := by
  unfold compTargetNat
  rw [h1, h2, h3]
  simp only
  omega

/-! ## What an accepted configuration gives -/

theorem wf_bounds {c : Config} (h : c.wf = true) :
    c.iMin ≤ c.iMax ∧ c.k ≤ 6 ∧ c.ditherRot ≤ 7 ∧ 0 < c.gapHold ∧ 0 < c.wdtTimeout ∧
      c.ctMax < 2 ^ 31 ∧ c.eMax * 2 ^ c.pShift < 2 ^ 31 ∧ c.iBound + c.eMax < 2 ^ 31 ∧
      c.eMax * 2 ^ c.pShift + c.iBound + c.dMax < 2 ^ 31 := by
  simp only [Config.wf, Config.shiftsWf, Config.rangesWf, Config.noWrap, Bool.and_eq_true,
    decide_eq_true_eq] at h
  tauto

theorem wf_masks {c : Config} (h : c.wf = true) :
    c.digitMasks.length = 12 ∧ (∀ m ∈ c.digitMasks, oneHot m = true) ∧ c.digitMasks.Nodup := by
  simp [Config.wf, digitMasksWf] at h
  tauto

theorem oneHot_iff (m : Half) : oneHot m = true ↔ ∃ n < 16, m = 1#16 <<< n := by
  simp [oneHot]

theorem digitMask_off (c : Config) {code : Nibble} (h : code = 0 ∨ 12 < code.toNat) :
    digitMask c code = 0 := by
  unfold digitMask
  split_ifs with h1 h2
  · rfl
  · rcases h with h | h
    · contradiction
    · omega
  · rfl

theorem digitMask_on {c : Config} (hc : c.wf = true) {code : Nibble} (h1 : 1 ≤ code.toNat)
    (h2 : code.toNat ≤ 12) : c.digitMasks[code.toNat - 1]? = some (digitMask c code) := by
  have hl := (wf_masks hc).1
  rw [digitMask, if_neg (by rintro rfl; simp at h1), if_pos h2,
    List.getD_eq_getElem _ _ (by omega), List.getElem?_eq_getElem]

end Sys2Proof.Machine
end

