-- ==== Sys2Proof/Laws/State.lean ====
section
/-! SUPPORT. One lemma per field per update of the state, true by rfl, so that no later proof unfolds a record
update. -/

namespace Sys2Proof.Machine

open Sys2Proof

variable (s : State)

@[simp] theorem setInbox_cfg (is : List Input) : (setInbox is s).cfg = s.cfg := rfl
@[simp] theorem setInbox_controller (is : List Input) : (setInbox is s).controller = s.controller := rfl
@[simp] theorem setInbox_fade (is : List Input) : (setInbox is s).fade = s.fade := rfl
@[simp] theorem setInbox_period (is : List Input) : (setInbox is s).period = s.period := rfl
@[simp] theorem setInbox_dutyCap (is : List Input) : (setInbox is s).dutyCap = s.dutyCap := rfl
@[simp] theorem setInbox_auxDuty (is : List Input) : (setInbox is s).auxDuty = s.auxDuty := rfl
@[simp] theorem setInbox_outMask (is : List Input) : (setInbox is s).outMask = s.outMask := rfl
@[simp] theorem setInbox_status (is : List Input) : (setInbox is s).status = s.status := rfl
@[simp] theorem setInbox_samplePending (is : List Input) : (setInbox is s).samplePending = s.samplePending := rfl
@[simp] theorem setInbox_mainPhase (is : List Input) : (setInbox is s).mainPhase = s.mainPhase := rfl
@[simp] theorem setInbox_polling (is : List Input) : (setInbox is s).polling = s.polling := rfl
@[simp] theorem setInbox_control (is : List Input) : (setInbox is s).control = s.control := rfl
@[simp] theorem setInbox_boot (is : List Input) : (setInbox is s).boot = s.boot := rfl
@[simp] theorem setInbox_results (is : List Input) : (setInbox is s).results = s.results := rfl
@[simp] theorem setInbox_sincePet (is : List Input) : (setInbox is s).sincePet = s.sincePet := rfl
@[simp] theorem setInbox_switchCompare (is : List Input) : (setInbox is s).switchCompare = s.switchCompare := rfl
@[simp] theorem setInbox_switchActive (is : List Input) : (setInbox is s).switchActive = s.switchActive := rfl
@[simp] theorem setInbox_inbox (is : List Input) : (setInbox is s).inbox = is := rfl
@[simp] theorem setInbox_outputs (is : List Input) : (setInbox is s).outputs = s.outputs := rfl
@[simp] theorem setInbox_draws (is : List Input) : (setInbox is s).draws = s.draws := rfl

@[simp] theorem setPolling_cfg (p : PollingProgress) : (setPolling p s).cfg = s.cfg := rfl
@[simp] theorem setPolling_controller (p : PollingProgress) : (setPolling p s).controller = s.controller := rfl
@[simp] theorem setPolling_fade (p : PollingProgress) : (setPolling p s).fade = s.fade := rfl
@[simp] theorem setPolling_period (p : PollingProgress) : (setPolling p s).period = s.period := rfl
@[simp] theorem setPolling_dutyCap (p : PollingProgress) : (setPolling p s).dutyCap = s.dutyCap := rfl
@[simp] theorem setPolling_auxDuty (p : PollingProgress) : (setPolling p s).auxDuty = s.auxDuty := rfl
@[simp] theorem setPolling_outMask (p : PollingProgress) : (setPolling p s).outMask = s.outMask := rfl
@[simp] theorem setPolling_status (p : PollingProgress) : (setPolling p s).status = s.status := rfl
@[simp] theorem setPolling_samplePending (p : PollingProgress) : (setPolling p s).samplePending = s.samplePending :=
    rfl
@[simp] theorem setPolling_mainPhase (p : PollingProgress) : (setPolling p s).mainPhase = s.mainPhase := rfl
@[simp] theorem setPolling_polling (p : PollingProgress) : (setPolling p s).polling = p := rfl
@[simp] theorem setPolling_control (p : PollingProgress) : (setPolling p s).control = s.control := rfl
@[simp] theorem setPolling_boot (p : PollingProgress) : (setPolling p s).boot = s.boot := rfl
@[simp] theorem setPolling_results (p : PollingProgress) : (setPolling p s).results = s.results := rfl
@[simp] theorem setPolling_sincePet (p : PollingProgress) : (setPolling p s).sincePet = s.sincePet := rfl
@[simp] theorem setPolling_switchCompare (p : PollingProgress) : (setPolling p s).switchCompare = s.switchCompare :=
    rfl
@[simp] theorem setPolling_switchActive (p : PollingProgress) : (setPolling p s).switchActive = s.switchActive :=
    rfl
@[simp] theorem setPolling_inbox (p : PollingProgress) : (setPolling p s).inbox = s.inbox := rfl
@[simp] theorem setPolling_outputs (p : PollingProgress) : (setPolling p s).outputs = s.outputs := rfl
@[simp] theorem setPolling_draws (p : PollingProgress) : (setPolling p s).draws = s.draws := rfl

@[simp] theorem emit_cfg (os : List Output) : (emit os s).cfg = s.cfg := rfl
@[simp] theorem emit_controller (os : List Output) : (emit os s).controller = s.controller := rfl
@[simp] theorem emit_fade (os : List Output) : (emit os s).fade = s.fade := rfl
@[simp] theorem emit_period (os : List Output) : (emit os s).period = s.period := rfl
@[simp] theorem emit_dutyCap (os : List Output) : (emit os s).dutyCap = s.dutyCap := rfl
@[simp] theorem emit_auxDuty (os : List Output) : (emit os s).auxDuty = s.auxDuty := rfl
@[simp] theorem emit_outMask (os : List Output) : (emit os s).outMask = s.outMask := rfl
@[simp] theorem emit_status (os : List Output) : (emit os s).status = s.status := rfl
@[simp] theorem emit_samplePending (os : List Output) : (emit os s).samplePending = s.samplePending := rfl
@[simp] theorem emit_mainPhase (os : List Output) : (emit os s).mainPhase = s.mainPhase := rfl
@[simp] theorem emit_polling (os : List Output) : (emit os s).polling = s.polling := rfl
@[simp] theorem emit_control (os : List Output) : (emit os s).control = s.control := rfl
@[simp] theorem emit_boot (os : List Output) : (emit os s).boot = s.boot := rfl
@[simp] theorem emit_results (os : List Output) : (emit os s).results = s.results := rfl
@[simp] theorem emit_sincePet (os : List Output) : (emit os s).sincePet = s.sincePet := rfl
@[simp] theorem emit_switchCompare (os : List Output) : (emit os s).switchCompare = s.switchCompare := rfl
@[simp] theorem emit_switchActive (os : List Output) : (emit os s).switchActive = s.switchActive := rfl
@[simp] theorem emit_inbox (os : List Output) : (emit os s).inbox = s.inbox := rfl
@[simp] theorem emit_outputs (os : List Output) : (emit os s).outputs = s.outputs ++ os := rfl
@[simp] theorem emit_draws (os : List Output) : (emit os s).draws = s.draws := rfl

@[simp] theorem takeInterrupt_cfg (fb ref : Sample) : (takeInterrupt fb ref s).cfg = s.cfg := rfl
@[simp] theorem takeInterrupt_controller (fb ref : Sample) : (takeInterrupt fb ref s).controller = s.controller :=
    rfl
@[simp] theorem takeInterrupt_fade (fb ref : Sample) : (takeInterrupt fb ref s).fade = s.fade := rfl
@[simp] theorem takeInterrupt_period (fb ref : Sample) : (takeInterrupt fb ref s).period = s.period := rfl
@[simp] theorem takeInterrupt_dutyCap (fb ref : Sample) : (takeInterrupt fb ref s).dutyCap = s.dutyCap := rfl
@[simp] theorem takeInterrupt_auxDuty (fb ref : Sample) : (takeInterrupt fb ref s).auxDuty = s.auxDuty := rfl
@[simp] theorem takeInterrupt_outMask (fb ref : Sample) : (takeInterrupt fb ref s).outMask = s.outMask := rfl
@[simp] theorem takeInterrupt_status (fb ref : Sample) : (takeInterrupt fb ref s).status = s.status := rfl
@[simp] theorem takeInterrupt_samplePending (fb ref : Sample) : (takeInterrupt fb ref s).samplePending = false :=
    rfl
@[simp] theorem takeInterrupt_mainPhase (fb ref : Sample) : (takeInterrupt fb ref s).mainPhase = s.mainPhase := rfl
@[simp] theorem takeInterrupt_polling (fb ref : Sample) : (takeInterrupt fb ref s).polling = s.polling := rfl
@[simp] theorem takeInterrupt_control (fb ref : Sample) : (takeInterrupt fb ref s).control = .running fb ref := rfl
@[simp] theorem takeInterrupt_boot (fb ref : Sample) : (takeInterrupt fb ref s).boot = s.boot := rfl
@[simp] theorem takeInterrupt_results (fb ref : Sample) : (takeInterrupt fb ref s).results = [] := rfl
@[simp] theorem takeInterrupt_sincePet (fb ref : Sample) : (takeInterrupt fb ref s).sincePet = s.sincePet := rfl
@[simp] theorem takeInterrupt_switchCompare (fb ref : Sample) : (takeInterrupt fb ref s).switchCompare =
    s.switchCompare :=
    rfl
@[simp] theorem takeInterrupt_switchActive (fb ref : Sample) : (takeInterrupt fb ref s).switchActive =
    s.switchActive :=
    rfl
@[simp] theorem takeInterrupt_inbox (fb ref : Sample) : (takeInterrupt fb ref s).inbox = s.inbox := rfl
@[simp] theorem takeInterrupt_outputs (fb ref : Sample) : (takeInterrupt fb ref s).outputs = s.outputs := rfl
@[simp] theorem takeInterrupt_draws (fb ref : Sample) : (takeInterrupt fb ref s).draws = s.draws := rfl

@[simp] theorem returnFromInterrupt_cfg : (returnFromInterrupt s).cfg = s.cfg := rfl
@[simp] theorem returnFromInterrupt_controller : (returnFromInterrupt s).controller = s.controller := rfl
@[simp] theorem returnFromInterrupt_fade : (returnFromInterrupt s).fade = s.fade := rfl
@[simp] theorem returnFromInterrupt_period : (returnFromInterrupt s).period = s.period := rfl
@[simp] theorem returnFromInterrupt_dutyCap : (returnFromInterrupt s).dutyCap = s.dutyCap := rfl
@[simp] theorem returnFromInterrupt_auxDuty : (returnFromInterrupt s).auxDuty = s.auxDuty := rfl
@[simp] theorem returnFromInterrupt_outMask : (returnFromInterrupt s).outMask = s.outMask := rfl
@[simp] theorem returnFromInterrupt_status : (returnFromInterrupt s).status = s.status := rfl
@[simp] theorem returnFromInterrupt_samplePending : (returnFromInterrupt s).samplePending = s.samplePending := rfl
@[simp] theorem returnFromInterrupt_mainPhase : (returnFromInterrupt s).mainPhase = s.mainPhase := rfl
@[simp] theorem returnFromInterrupt_polling : (returnFromInterrupt s).polling = s.polling := rfl
@[simp] theorem returnFromInterrupt_control : (returnFromInterrupt s).control = .idle := rfl
@[simp] theorem returnFromInterrupt_boot : (returnFromInterrupt s).boot = s.boot := rfl
@[simp] theorem returnFromInterrupt_results : (returnFromInterrupt s).results = s.results := rfl
@[simp] theorem returnFromInterrupt_sincePet : (returnFromInterrupt s).sincePet = 0 := rfl
@[simp] theorem returnFromInterrupt_switchCompare : (returnFromInterrupt s).switchCompare = s.switchCompare := rfl
@[simp] theorem returnFromInterrupt_switchActive : (returnFromInterrupt s).switchActive = s.switchActive := rfl
@[simp] theorem returnFromInterrupt_inbox : (returnFromInterrupt s).inbox = s.inbox := rfl
@[simp] theorem returnFromInterrupt_outputs : (returnFromInterrupt s).outputs = s.outputs ++ [.wdtPet] := rfl
@[simp] theorem returnFromInterrupt_draws : (returnFromInterrupt s).draws = s.draws := rfl

@[simp] theorem resetOperation_cfg : (resetOperation s).cfg = s.cfg := rfl
@[simp] theorem resetOperation_controller : (resetOperation s).controller = ControllerState.zero := rfl
@[simp] theorem resetOperation_fade : (resetOperation s).fade = FadeState.allOff := rfl
@[simp] theorem resetOperation_period : (resetOperation s).period = s.cfg.periodDefault := rfl
@[simp] theorem resetOperation_dutyCap : (resetOperation s).dutyCap = 0xFF := rfl
@[simp] theorem resetOperation_auxDuty : (resetOperation s).auxDuty = 0 := rfl
@[simp] theorem resetOperation_outMask : (resetOperation s).outMask = 0 := rfl
@[simp] theorem resetOperation_status : (resetOperation s).status = 0 := rfl
@[simp] theorem resetOperation_samplePending : (resetOperation s).samplePending = false := rfl
@[simp] theorem resetOperation_mainPhase : (resetOperation s).mainPhase = .poll := rfl
@[simp] theorem resetOperation_polling : (resetOperation s).polling = .between := rfl
@[simp] theorem resetOperation_control : (resetOperation s).control = .idle := rfl
@[simp] theorem resetOperation_boot : (resetOperation s).boot = .registersReset := rfl
@[simp] theorem resetOperation_results : (resetOperation s).results = [] := rfl
@[simp] theorem resetOperation_sincePet : (resetOperation s).sincePet = 0 := rfl
@[simp] theorem resetOperation_switchCompare : (resetOperation s).switchCompare = 0 := rfl
@[simp] theorem resetOperation_switchActive : (resetOperation s).switchActive = 0 := rfl
@[simp] theorem resetOperation_inbox : (resetOperation s).inbox = s.inbox := rfl
@[simp] theorem resetOperation_outputs : (resetOperation s).outputs = s.outputs ++ resetOutputs s.cfg := rfl
@[simp] theorem resetOperation_draws : (resetOperation s).draws = s.draws := rfl

@[simp] theorem runControlLaw_cfg (fb ref : Sample) : (runControlLaw fb ref s).cfg = s.cfg := rfl
@[simp] theorem runControlLaw_controller (fb ref : Sample) : (runControlLaw fb ref s).controller =
    controlLaw s.cfg s.controller s.period s.dutyCap fb ref :=
    rfl
@[simp] theorem runControlLaw_fade (fb ref : Sample) : (runControlLaw fb ref s).fade = s.fade := rfl
@[simp] theorem runControlLaw_period (fb ref : Sample) : (runControlLaw fb ref s).period = s.period := rfl
@[simp] theorem runControlLaw_dutyCap (fb ref : Sample) : (runControlLaw fb ref s).dutyCap = s.dutyCap := rfl
@[simp] theorem runControlLaw_auxDuty (fb ref : Sample) : (runControlLaw fb ref s).auxDuty = s.auxDuty := rfl
@[simp] theorem runControlLaw_outMask (fb ref : Sample) : (runControlLaw fb ref s).outMask = s.outMask := rfl
@[simp] theorem runControlLaw_status (fb ref : Sample) : (runControlLaw fb ref s).status = s.status := rfl
@[simp] theorem runControlLaw_samplePending (fb ref : Sample) : (runControlLaw fb ref s).samplePending =
    s.samplePending :=
    rfl
@[simp] theorem runControlLaw_mainPhase (fb ref : Sample) : (runControlLaw fb ref s).mainPhase = s.mainPhase := rfl
@[simp] theorem runControlLaw_polling (fb ref : Sample) : (runControlLaw fb ref s).polling = s.polling := rfl
@[simp] theorem runControlLaw_control (fb ref : Sample) : (runControlLaw fb ref s).control = .dutyWritten := rfl
@[simp] theorem runControlLaw_boot (fb ref : Sample) : (runControlLaw fb ref s).boot = s.boot := rfl
@[simp] theorem runControlLaw_results (fb ref : Sample) : (runControlLaw fb ref s).results = s.results := rfl
@[simp] theorem runControlLaw_sincePet (fb ref : Sample) : (runControlLaw fb ref s).sincePet = s.sincePet := rfl
@[simp] theorem runControlLaw_switchCompare (fb ref : Sample) : (runControlLaw fb ref s).switchCompare =
    dutyPort (controlLaw s.cfg s.controller s.period s.dutyCap fb ref) :=
    rfl
@[simp] theorem runControlLaw_switchActive (fb ref : Sample) : (runControlLaw fb ref s).switchActive =
    s.switchActive :=
    rfl
@[simp] theorem runControlLaw_inbox (fb ref : Sample) : (runControlLaw fb ref s).inbox = s.inbox := rfl
@[simp] theorem runControlLaw_outputs (fb ref : Sample) : (runControlLaw fb ref s).outputs =
    s.outputs ++ [.switchDuty (dutyPort (controlLaw s.cfg s.controller s.period s.dutyCap fb ref))] :=
    rfl
@[simp] theorem runControlLaw_draws (fb ref : Sample) : (runControlLaw fb ref s).draws = s.draws := rfl

@[simp] theorem loseTrigger_cfg (fb ref : Sample) : (loseTrigger fb ref s).cfg = s.cfg := rfl
@[simp] theorem loseTrigger_controller (fb ref : Sample) : (loseTrigger fb ref s).controller = s.controller := rfl
@[simp] theorem loseTrigger_fade (fb ref : Sample) : (loseTrigger fb ref s).fade = s.fade := rfl
@[simp] theorem loseTrigger_period (fb ref : Sample) : (loseTrigger fb ref s).period = s.period := rfl
@[simp] theorem loseTrigger_dutyCap (fb ref : Sample) : (loseTrigger fb ref s).dutyCap = s.dutyCap := rfl
@[simp] theorem loseTrigger_auxDuty (fb ref : Sample) : (loseTrigger fb ref s).auxDuty = s.auxDuty := rfl
@[simp] theorem loseTrigger_outMask (fb ref : Sample) : (loseTrigger fb ref s).outMask = s.outMask := rfl
@[simp] theorem loseTrigger_status (fb ref : Sample) : (loseTrigger fb ref s).status = s.status := rfl
@[simp] theorem loseTrigger_samplePending (fb ref : Sample) : (loseTrigger fb ref s).samplePending =
    s.samplePending :=
    rfl
@[simp] theorem loseTrigger_mainPhase (fb ref : Sample) : (loseTrigger fb ref s).mainPhase = s.mainPhase := rfl
@[simp] theorem loseTrigger_polling (fb ref : Sample) : (loseTrigger fb ref s).polling = s.polling := rfl
@[simp] theorem loseTrigger_control (fb ref : Sample) : (loseTrigger fb ref s).control = s.control := rfl
@[simp] theorem loseTrigger_boot (fb ref : Sample) : (loseTrigger fb ref s).boot = s.boot := rfl
@[simp] theorem loseTrigger_results (fb ref : Sample) : (loseTrigger fb ref s).results = s.results ++ [(fb, ref)] :=
    rfl
@[simp] theorem loseTrigger_sincePet (fb ref : Sample) : (loseTrigger fb ref s).sincePet = s.sincePet := rfl
@[simp] theorem loseTrigger_switchCompare (fb ref : Sample) : (loseTrigger fb ref s).switchCompare =
    s.switchCompare :=
    rfl
@[simp] theorem loseTrigger_switchActive (fb ref : Sample) : (loseTrigger fb ref s).switchActive = s.switchActive :=
    rfl
@[simp] theorem loseTrigger_inbox (fb ref : Sample) : (loseTrigger fb ref s).inbox = s.inbox := rfl
@[simp] theorem loseTrigger_outputs (fb ref : Sample) : (loseTrigger fb ref s).outputs = s.outputs := rfl
@[simp] theorem loseTrigger_draws (fb ref : Sample) : (loseTrigger fb ref s).draws = s.draws := rfl

@[simp] theorem readFeedback_cfg : (readFeedback s).cfg = s.cfg := rfl
@[simp] theorem readFeedback_controller : (readFeedback s).controller = s.controller := rfl
@[simp] theorem readFeedback_fade : (readFeedback s).fade = s.fade := rfl
@[simp] theorem readFeedback_period : (readFeedback s).period = s.period := rfl
@[simp] theorem readFeedback_dutyCap : (readFeedback s).dutyCap = s.dutyCap := rfl
@[simp] theorem readFeedback_auxDuty : (readFeedback s).auxDuty = s.auxDuty := rfl
@[simp] theorem readFeedback_outMask : (readFeedback s).outMask = s.outMask := rfl
@[simp] theorem readFeedback_status : (readFeedback s).status = s.status := rfl
@[simp] theorem readFeedback_samplePending : (readFeedback s).samplePending = s.samplePending := rfl
@[simp] theorem readFeedback_mainPhase : (readFeedback s).mainPhase = s.mainPhase := rfl
@[simp] theorem readFeedback_polling : (readFeedback s).polling = .feedbackRead s.controller.filteredFeedback := rfl
@[simp] theorem readFeedback_control : (readFeedback s).control = s.control := rfl
@[simp] theorem readFeedback_boot : (readFeedback s).boot = s.boot := rfl
@[simp] theorem readFeedback_results : (readFeedback s).results = s.results := rfl
@[simp] theorem readFeedback_sincePet : (readFeedback s).sincePet = s.sincePet := rfl
@[simp] theorem readFeedback_switchCompare : (readFeedback s).switchCompare = s.switchCompare := rfl
@[simp] theorem readFeedback_switchActive : (readFeedback s).switchActive = s.switchActive := rfl
@[simp] theorem readFeedback_inbox : (readFeedback s).inbox = s.inbox := rfl
@[simp] theorem readFeedback_outputs : (readFeedback s).outputs = s.outputs := rfl
@[simp] theorem readFeedback_draws : (readFeedback s).draws = s.draws := rfl

@[simp] theorem publishStatus_cfg (fb : Word) : (publishStatus fb s).cfg = s.cfg := rfl
@[simp] theorem publishStatus_controller (fb : Word) : (publishStatus fb s).controller = s.controller := rfl
@[simp] theorem publishStatus_fade (fb : Word) : (publishStatus fb s).fade = s.fade := rfl
@[simp] theorem publishStatus_period (fb : Word) : (publishStatus fb s).period = s.period := rfl
@[simp] theorem publishStatus_dutyCap (fb : Word) : (publishStatus fb s).dutyCap = s.dutyCap := rfl
@[simp] theorem publishStatus_auxDuty (fb : Word) : (publishStatus fb s).auxDuty = s.auxDuty := rfl
@[simp] theorem publishStatus_outMask (fb : Word) : (publishStatus fb s).outMask = s.outMask := rfl
@[simp] theorem publishStatus_status (fb : Word) : (publishStatus fb s).status =
    statusWord s.cfg fb s.controller.filteredReference :=
    rfl
@[simp] theorem publishStatus_samplePending (fb : Word) : (publishStatus fb s).samplePending = s.samplePending :=
    rfl
@[simp] theorem publishStatus_mainPhase (fb : Word) : (publishStatus fb s).mainPhase = .fade := rfl
@[simp] theorem publishStatus_polling (fb : Word) : (publishStatus fb s).polling = .between := rfl
@[simp] theorem publishStatus_control (fb : Word) : (publishStatus fb s).control = s.control := rfl
@[simp] theorem publishStatus_boot (fb : Word) : (publishStatus fb s).boot = s.boot := rfl
@[simp] theorem publishStatus_results (fb : Word) : (publishStatus fb s).results = s.results := rfl
@[simp] theorem publishStatus_sincePet (fb : Word) : (publishStatus fb s).sincePet = s.sincePet := rfl
@[simp] theorem publishStatus_switchCompare (fb : Word) : (publishStatus fb s).switchCompare = s.switchCompare :=
    rfl
@[simp] theorem publishStatus_switchActive (fb : Word) : (publishStatus fb s).switchActive = s.switchActive := rfl
@[simp] theorem publishStatus_inbox (fb : Word) : (publishStatus fb s).inbox = s.inbox := rfl
@[simp] theorem publishStatus_outputs (fb : Word) : (publishStatus fb s).outputs =
    s.outputs ++ [.statusWord (statusWord s.cfg fb s.controller.filteredReference)] :=
    rfl
@[simp] theorem publishStatus_draws (fb : Word) : (publishStatus fb s).draws = s.draws := rfl

@[simp] theorem startGap_cfg (m : Half) : (startGap m s).cfg = s.cfg := rfl
@[simp] theorem startGap_controller (m : Half) : (startGap m s).controller = s.controller := rfl
@[simp] theorem startGap_fade (m : Half) : (startGap m s).fade = s.fade := rfl
@[simp] theorem startGap_period (m : Half) : (startGap m s).period = s.period := rfl
@[simp] theorem startGap_dutyCap (m : Half) : (startGap m s).dutyCap = s.dutyCap := rfl
@[simp] theorem startGap_auxDuty (m : Half) : (startGap m s).auxDuty = s.auxDuty := rfl
@[simp] theorem startGap_outMask (m : Half) : (startGap m s).outMask = 0 := rfl
@[simp] theorem startGap_status (m : Half) : (startGap m s).status = s.status := rfl
@[simp] theorem startGap_samplePending (m : Half) : (startGap m s).samplePending = s.samplePending := rfl
@[simp] theorem startGap_mainPhase (m : Half) : (startGap m s).mainPhase = s.mainPhase := rfl
@[simp] theorem startGap_polling (m : Half) : (startGap m s).polling = .holding m := rfl
@[simp] theorem startGap_control (m : Half) : (startGap m s).control = s.control := rfl
@[simp] theorem startGap_boot (m : Half) : (startGap m s).boot = s.boot := rfl
@[simp] theorem startGap_results (m : Half) : (startGap m s).results = s.results := rfl
@[simp] theorem startGap_sincePet (m : Half) : (startGap m s).sincePet = s.sincePet := rfl
@[simp] theorem startGap_switchCompare (m : Half) : (startGap m s).switchCompare = s.switchCompare := rfl
@[simp] theorem startGap_switchActive (m : Half) : (startGap m s).switchActive = s.switchActive := rfl
@[simp] theorem startGap_inbox (m : Half) : (startGap m s).inbox = s.inbox := rfl
@[simp] theorem startGap_outputs (m : Half) : (startGap m s).outputs =
    s.outputs ++ [.digitBus 0, .gapHold s.cfg.gapHold] :=
    rfl
@[simp] theorem startGap_draws (m : Half) : (startGap m s).draws = s.draws := rfl

@[simp] theorem endGap_cfg (m : Half) : (endGap m s).cfg = s.cfg := rfl
@[simp] theorem endGap_controller (m : Half) : (endGap m s).controller = s.controller := rfl
@[simp] theorem endGap_fade (m : Half) : (endGap m s).fade = { s.fade with lastAppliedMask := m } := rfl
@[simp] theorem endGap_period (m : Half) : (endGap m s).period = s.period := rfl
@[simp] theorem endGap_dutyCap (m : Half) : (endGap m s).dutyCap = s.dutyCap := rfl
@[simp] theorem endGap_auxDuty (m : Half) : (endGap m s).auxDuty = s.auxDuty := rfl
@[simp] theorem endGap_outMask (m : Half) : (endGap m s).outMask = m := rfl
@[simp] theorem endGap_status (m : Half) : (endGap m s).status = s.status := rfl
@[simp] theorem endGap_samplePending (m : Half) : (endGap m s).samplePending = s.samplePending := rfl
@[simp] theorem endGap_mainPhase (m : Half) : (endGap m s).mainPhase = .poll := rfl
@[simp] theorem endGap_polling (m : Half) : (endGap m s).polling = .between := rfl
@[simp] theorem endGap_control (m : Half) : (endGap m s).control = s.control := rfl
@[simp] theorem endGap_boot (m : Half) : (endGap m s).boot = s.boot := rfl
@[simp] theorem endGap_results (m : Half) : (endGap m s).results = s.results := rfl
@[simp] theorem endGap_sincePet (m : Half) : (endGap m s).sincePet = s.sincePet := rfl
@[simp] theorem endGap_switchCompare (m : Half) : (endGap m s).switchCompare = s.switchCompare := rfl
@[simp] theorem endGap_switchActive (m : Half) : (endGap m s).switchActive = s.switchActive := rfl
@[simp] theorem endGap_inbox (m : Half) : (endGap m s).inbox = s.inbox := rfl
@[simp] theorem endGap_outputs (m : Half) : (endGap m s).outputs = s.outputs ++ [.digitBus m] := rfl
@[simp] theorem endGap_draws (m : Half) : (endGap m s).draws = s.draws := rfl

@[simp] theorem keepMask_cfg : (keepMask s).cfg = s.cfg := rfl
@[simp] theorem keepMask_controller : (keepMask s).controller = s.controller := rfl
@[simp] theorem keepMask_fade : (keepMask s).fade = s.fade := rfl
@[simp] theorem keepMask_period : (keepMask s).period = s.period := rfl
@[simp] theorem keepMask_dutyCap : (keepMask s).dutyCap = s.dutyCap := rfl
@[simp] theorem keepMask_auxDuty : (keepMask s).auxDuty = s.auxDuty := rfl
@[simp] theorem keepMask_outMask : (keepMask s).outMask = s.outMask := rfl
@[simp] theorem keepMask_status : (keepMask s).status = s.status := rfl
@[simp] theorem keepMask_samplePending : (keepMask s).samplePending = s.samplePending := rfl
@[simp] theorem keepMask_mainPhase : (keepMask s).mainPhase = .poll := rfl
@[simp] theorem keepMask_polling : (keepMask s).polling = s.polling := rfl
@[simp] theorem keepMask_control : (keepMask s).control = s.control := rfl
@[simp] theorem keepMask_boot : (keepMask s).boot = s.boot := rfl
@[simp] theorem keepMask_results : (keepMask s).results = s.results := rfl
@[simp] theorem keepMask_sincePet : (keepMask s).sincePet = s.sincePet := rfl
@[simp] theorem keepMask_switchCompare : (keepMask s).switchCompare = s.switchCompare := rfl
@[simp] theorem keepMask_switchActive : (keepMask s).switchActive = s.switchActive := rfl
@[simp] theorem keepMask_inbox : (keepMask s).inbox = s.inbox := rfl
@[simp] theorem keepMask_outputs : (keepMask s).outputs = s.outputs := rfl
@[simp] theorem keepMask_draws : (keepMask s).draws = s.draws := rfl

@[simp] theorem writePeriod_cfg (per : Byte) : (writePeriod per s).cfg = s.cfg := rfl
@[simp] theorem writePeriod_controller (per : Byte) : (writePeriod per s).controller = s.controller := rfl
@[simp] theorem writePeriod_fade (per : Byte) : (writePeriod per s).fade = s.fade := rfl
@[simp] theorem writePeriod_period (per : Byte) : (writePeriod per s).period = per.setWidth 16 := rfl
@[simp] theorem writePeriod_dutyCap (per : Byte) : (writePeriod per s).dutyCap = s.dutyCap := rfl
@[simp] theorem writePeriod_auxDuty (per : Byte) : (writePeriod per s).auxDuty = s.auxDuty := rfl
@[simp] theorem writePeriod_outMask (per : Byte) : (writePeriod per s).outMask = s.outMask := rfl
@[simp] theorem writePeriod_status (per : Byte) : (writePeriod per s).status = s.status := rfl
@[simp] theorem writePeriod_samplePending (per : Byte) : (writePeriod per s).samplePending = s.samplePending := rfl
@[simp] theorem writePeriod_mainPhase (per : Byte) : (writePeriod per s).mainPhase = s.mainPhase := rfl
@[simp] theorem writePeriod_polling (per : Byte) : (writePeriod per s).polling = s.polling := rfl
@[simp] theorem writePeriod_control (per : Byte) : (writePeriod per s).control = s.control := rfl
@[simp] theorem writePeriod_boot (per : Byte) : (writePeriod per s).boot = s.boot := rfl
@[simp] theorem writePeriod_results (per : Byte) : (writePeriod per s).results = s.results := rfl
@[simp] theorem writePeriod_sincePet (per : Byte) : (writePeriod per s).sincePet = s.sincePet := rfl
@[simp] theorem writePeriod_switchCompare (per : Byte) : (writePeriod per s).switchCompare = s.switchCompare := rfl
@[simp] theorem writePeriod_switchActive (per : Byte) : (writePeriod per s).switchActive = s.switchActive := rfl
@[simp] theorem writePeriod_inbox (per : Byte) : (writePeriod per s).inbox = s.inbox := rfl
@[simp] theorem writePeriod_outputs (per : Byte) : (writePeriod per s).outputs = s.outputs := rfl
@[simp] theorem writePeriod_draws (per : Byte) : (writePeriod per s).draws = s.draws := rfl

@[simp] theorem writeCap_cfg (maxd : Byte) : (writeCap maxd s).cfg = s.cfg := rfl
@[simp] theorem writeCap_controller (maxd : Byte) : (writeCap maxd s).controller = s.controller := rfl
@[simp] theorem writeCap_fade (maxd : Byte) : (writeCap maxd s).fade = s.fade := rfl
@[simp] theorem writeCap_period (maxd : Byte) : (writeCap maxd s).period = s.period := rfl
@[simp] theorem writeCap_dutyCap (maxd : Byte) : (writeCap maxd s).dutyCap = maxd := rfl
@[simp] theorem writeCap_auxDuty (maxd : Byte) : (writeCap maxd s).auxDuty = s.auxDuty := rfl
@[simp] theorem writeCap_outMask (maxd : Byte) : (writeCap maxd s).outMask = s.outMask := rfl
@[simp] theorem writeCap_status (maxd : Byte) : (writeCap maxd s).status = s.status := rfl
@[simp] theorem writeCap_samplePending (maxd : Byte) : (writeCap maxd s).samplePending = s.samplePending := rfl
@[simp] theorem writeCap_mainPhase (maxd : Byte) : (writeCap maxd s).mainPhase = s.mainPhase := rfl
@[simp] theorem writeCap_polling (maxd : Byte) : (writeCap maxd s).polling = s.polling := rfl
@[simp] theorem writeCap_control (maxd : Byte) : (writeCap maxd s).control = s.control := rfl
@[simp] theorem writeCap_boot (maxd : Byte) : (writeCap maxd s).boot = s.boot := rfl
@[simp] theorem writeCap_results (maxd : Byte) : (writeCap maxd s).results = s.results := rfl
@[simp] theorem writeCap_sincePet (maxd : Byte) : (writeCap maxd s).sincePet = s.sincePet := rfl
@[simp] theorem writeCap_switchCompare (maxd : Byte) : (writeCap maxd s).switchCompare = s.switchCompare := rfl
@[simp] theorem writeCap_switchActive (maxd : Byte) : (writeCap maxd s).switchActive = s.switchActive := rfl
@[simp] theorem writeCap_inbox (maxd : Byte) : (writeCap maxd s).inbox = s.inbox := rfl
@[simp] theorem writeCap_outputs (maxd : Byte) : (writeCap maxd s).outputs = s.outputs := rfl
@[simp] theorem writeCap_draws (maxd : Byte) : (writeCap maxd s).draws = s.draws := rfl

@[simp] theorem periodEnds_cfg : (periodEnds s).cfg = s.cfg := rfl
@[simp] theorem periodEnds_controller : (periodEnds s).controller = s.controller := rfl
@[simp] theorem periodEnds_fade : (periodEnds s).fade = s.fade := rfl
@[simp] theorem periodEnds_period : (periodEnds s).period = s.period := rfl
@[simp] theorem periodEnds_dutyCap : (periodEnds s).dutyCap = s.dutyCap := rfl
@[simp] theorem periodEnds_auxDuty : (periodEnds s).auxDuty = s.auxDuty := rfl
@[simp] theorem periodEnds_outMask : (periodEnds s).outMask = s.outMask := rfl
@[simp] theorem periodEnds_status : (periodEnds s).status = s.status := rfl
@[simp] theorem periodEnds_samplePending : (periodEnds s).samplePending = s.samplePending := rfl
@[simp] theorem periodEnds_mainPhase : (periodEnds s).mainPhase = s.mainPhase := rfl
@[simp] theorem periodEnds_polling : (periodEnds s).polling = s.polling := rfl
@[simp] theorem periodEnds_control : (periodEnds s).control = s.control := rfl
@[simp] theorem periodEnds_boot : (periodEnds s).boot = s.boot := rfl
@[simp] theorem periodEnds_results : (periodEnds s).results = s.results := rfl
@[simp] theorem periodEnds_sincePet : (periodEnds s).sincePet = s.sincePet := rfl
@[simp] theorem periodEnds_switchCompare : (periodEnds s).switchCompare = s.switchCompare := rfl
@[simp] theorem periodEnds_switchActive : (periodEnds s).switchActive = s.switchCompare := rfl
@[simp] theorem periodEnds_inbox : (periodEnds s).inbox = s.inbox := rfl
@[simp] theorem periodEnds_outputs : (periodEnds s).outputs = s.outputs := rfl
@[simp] theorem periodEnds_draws : (periodEnds s).draws = s.draws + 1 := rfl

@[simp] theorem servePending_cfg : (servePending s).cfg = s.cfg := rfl
@[simp] theorem servePending_controller : (servePending s).controller = s.controller := rfl
@[simp] theorem servePending_fade : (servePending s).fade = s.fade := rfl
@[simp] theorem servePending_period : (servePending s).period = s.period := rfl
@[simp] theorem servePending_dutyCap : (servePending s).dutyCap = s.dutyCap := rfl
@[simp] theorem servePending_auxDuty : (servePending s).auxDuty = s.auxDuty := rfl
@[simp] theorem servePending_outMask : (servePending s).outMask = s.outMask := rfl
@[simp] theorem servePending_status : (servePending s).status = s.status := rfl
@[simp] theorem servePending_samplePending : (servePending s).samplePending = false := rfl
@[simp] theorem servePending_mainPhase : (servePending s).mainPhase = s.mainPhase := rfl
@[simp] theorem servePending_polling : (servePending s).polling = s.polling := rfl
@[simp] theorem servePending_control : (servePending s).control = .running (servedPair s).1 (servedPair s).2 := rfl
@[simp] theorem servePending_boot : (servePending s).boot = s.boot := rfl
@[simp] theorem servePending_results : (servePending s).results = [] := rfl
@[simp] theorem servePending_sincePet : (servePending s).sincePet = s.sincePet := rfl
@[simp] theorem servePending_switchCompare : (servePending s).switchCompare = s.switchCompare := rfl
@[simp] theorem servePending_switchActive : (servePending s).switchActive = s.switchActive := rfl
@[simp] theorem servePending_inbox : (servePending s).inbox = s.inbox := rfl
@[simp] theorem servePending_outputs : (servePending s).outputs = s.outputs := rfl
@[simp] theorem servePending_draws : (servePending s).draws = s.draws + 1 := rfl

end Sys2Proof.Machine
end

