-- ==== Sys2Proof/Laws/Operations.lean ====
section
/-! SUPPORT. For each operation that can answer in more than one way, one lemma that says once everything it
can do when it answers a next state. -/

namespace Sys2Proof.Machine

open Sys2Proof

theorem andThen_next {r : Result} {f : State → Result} {t : State} (h : andThen r f = .next t) :
    ∃ u, r = .next u ∧ f u = .next t := by
  cases r with
  | next u => exact ⟨u, rfl, h⟩
  | fault e => cases e
  | refused e => cases h

/-- No outcome is a fault: the type of faults is empty (R240). -/
theorem outcome_next_or_refused (r : Result) : (∃ t, r = .next t) ∨ ∃ e, r = .refused e := by
  cases r with
  | next t => exact .inl ⟨t, rfl⟩
  | fault e => cases e
  | refused e => exact .inr ⟨e, rfl⟩

theorem pollTurn_iff (s : State) :
    pollTurn s = true ↔
      s.boot = .running ∧ s.control = .idle ∧ s.mainPhase = .poll ∧ s.polling = .between := by
  simp [pollTurn, pollingMayRun, and_assoc]

theorem fadeTurn_iff (s : State) :
    fadeTurn s = true ↔
      s.boot = .running ∧ s.control = .idle ∧ s.mainPhase = .fade ∧ s.polling = .between := by
  simp [fadeTurn, pollingMayRun, and_assoc]

theorem sampleMayStart_iff (s : State) :
    sampleMayStart s = true ↔ s.boot = .running ∧ s.control = .idle := by
  simp [sampleMayStart, interruptEnabled]

theorem triggerRecognised_iff (s : State) :
    triggerRecognised s = true ↔
      s.boot = .running ∧ s.samplePending = false ∧ s.control = .idle := by
  simp [triggerRecognised, interruptEnabled, and_assoc]

theorem ignoredOf_isCommand (opc : Nibble) : (ignoredOf opc).isCommand = true := by
  unfold ignoredOf
  split <;> rfl

/-- Every command word decodes to a command, never to an event (R87, R89). -/
theorem decodeCommand_isCommand (hasTune : Bool) (w : Word) :
    (decodeCommand hasTune w).isCommand = true := by
  unfold decodeCommand
  split_ifs <;> first | rfl | exact ignoredOf_isCommand _

/-- Inside a POLL, a command does what `exec` says of it (R202). -/
theorem applyCommand_eq_exec {i : Instr} (h : i.isCommand = true) (s : State) :
    applyCommand i s = exec i s := by
  cases i <;> first | rfl | simp [Instr.isCommand] at h

/-- Every event word decodes to an event, never to a command (R90). -/
theorem decodeEvent_not_command {c : Config} {w : Nat} {i : Instr} (h : decodeEvent c w = .ok i) :
    i.isCommand = false := by
  unfold decodeEvent at h
  split at h <;> (try split_ifs at h) <;> cases h <;> rfl

theorem applyFresh_next {fresh : Bool} {w : Word} {s t : State} (h : applyFresh fresh w s = .next t) :
    (fresh = true ∧ exec (decodeCommand s.cfg.hasTune w) s = .next t) ∨ (fresh = false ∧ t = s) := by
  cases fresh with
  | false => exact .inr ⟨rfl, by cases h; rfl⟩
  | true =>
    refine .inl ⟨rfl, ?_⟩
    rw [← applyCommand_eq_exec (decodeCommand_isCommand _ _)]
    exact h

theorem execSample_next {fb ref : Sample} {s t : State} (h : execSample fb ref s = .next t) :
    (sampleMayStart s = true ∧
      t = returnFromInterrupt (runControlLaw fb ref (takeInterrupt fb ref s))) ∨
    (sampleMayStart s = false ∧ t = loseTrigger fb ref s) := by
  unfold execSample at h
  split_ifs at h with hm
  · exact .inl ⟨hm, by cases h; rfl⟩
  · exact .inr ⟨by simpa using hm, by cases h; rfl⟩

theorem execPoll_next {fresh : Bool} {w : Word} {s t : State} (h : execPoll fresh w s = .next t) :
    pollTurn s = true ∧ ∃ u, applyFresh fresh w s = .next u ∧
      t = publishStatus u.controller.filteredFeedback (readFeedback u) := by
  unfold execPoll at h
  split_ifs at h with hm
  obtain ⟨u, hu, ht⟩ := andThen_next h
  exact ⟨hm, u, hu, by cases ht; rfl⟩

theorem execFade_next {ts : Nat} {s t : State} (h : execFade ts s = .next t) :
    fadeTurn s = true ∧
      ((fadeMask ts s = s.fade.lastAppliedMask ∧ t = keepMask s) ∨
       (fadeMask ts s ≠ s.fade.lastAppliedMask ∧
        t = endGap (fadeMask ts s) (startGap (fadeMask ts s) s))) := by
  unfold execFade at h
  split_ifs at h with hm he
  · exact ⟨hm, .inl ⟨he, by cases h; rfl⟩⟩
  · exact ⟨hm, .inr ⟨he, by cases h; rfl⟩⟩

theorem microApply_next {fresh : Bool} {w : Word} {s t : State} (h : microApply fresh w s = .next t) :
    pollTurn s = true ∧ ∃ u, applyFresh fresh w s = .next u ∧ t = setPolling .applied u := by
  unfold microApply at h
  split_ifs at h with hm
  obtain ⟨u, hu, ht⟩ := andThen_next h
  exact ⟨hm, u, hu, by cases ht; rfl⟩

theorem microApplyPeriod_next {w : Word} {s t : State} (h : microApplyPeriod w s = .next t) :
    pollTurn s = true ∧ ∃ per maxd, decodeCommand s.cfg.hasTune w = .tune per maxd ∧
      t = setPolling (.periodWritten maxd) (writePeriod per s) := by
  unfold microApplyPeriod at h
  split_ifs at h with hm
  split at h
  · rename_i per maxd hd
    exact ⟨hm, per, maxd, hd, by cases h; rfl⟩
  · cases h

theorem microApplyCap_next {s t : State} (h : microApplyCap s = .next t) :
    ∃ maxd, s.polling = .periodWritten maxd ∧ t = setPolling .applied (writeCap maxd s) := by
  unfold microApplyCap at h
  split at h <;> cases h
  rename_i maxd hp
  exact ⟨maxd, hp, rfl⟩

theorem microRdfb_next {s t : State} (h : microRdfb s = .next t) :
    s.polling = .applied ∧ t = readFeedback s := by
  unfold microRdfb at h
  split at h <;> cases h
  rename_i hp
  exact ⟨hp, rfl⟩

theorem microRdref_next {s t : State} (h : microRdref s = .next t) :
    ∃ fb, s.polling = .feedbackRead fb ∧ t = publishStatus fb s := by
  unfold microRdref at h
  split at h <;> cases h
  rename_i fb hp
  exact ⟨fb, hp, rfl⟩

theorem microFadeBegin_next {ts : Nat} {s t : State} (h : microFadeBegin ts s = .next t) :
    ts < 2 ^ s.cfg.tsBits ∧ fadeTurn s = true ∧
      ((fadeMask ts s = s.fade.lastAppliedMask ∧ t = keepMask s) ∨
       (fadeMask ts s ≠ s.fade.lastAppliedMask ∧ t = startGap (fadeMask ts s) s)) := by
  unfold microFadeBegin at h
  split_ifs at h with hw hm he
  · exact ⟨Nat.lt_of_not_le hw, hm, .inl ⟨he, by cases h; rfl⟩⟩
  · exact ⟨Nat.lt_of_not_le hw, hm, .inr ⟨he, by cases h; rfl⟩⟩

theorem microFadeEnd_next {s t : State} (h : microFadeEnd s = .next t) :
    ∃ m, s.polling = .holding m ∧ t = endGap m s := by
  unfold microFadeEnd at h
  split at h <;> cases h
  rename_i m hp
  exact ⟨m, hp, rfl⟩

theorem conversionCompletes_cases (fb ref : Sample) (s : State) :
    (triggerRecognised s = true ∧
      conversionCompletes fb ref s =
        { s with samplePending := true, results := s.results ++ [(fb, ref)] }) ∨
    (triggerRecognised s = false ∧ conversionCompletes fb ref s = loseTrigger fb ref s) := by
  unfold conversionCompletes
  split_ifs with h
  · exact .inl ⟨h, rfl⟩
  · exact .inr ⟨by simpa using h, rfl⟩

theorem clockTick_cases (s : State) :
    (watchdogArmed s = false ∧ clockTick s = s) ∨
    (watchdogArmed s = true ∧ s.cfg.wdtTimeout ≤ s.sincePet + 1 ∧ clockTick s = resetOperation s) ∨
    (watchdogArmed s = true ∧ s.sincePet + 1 < s.cfg.wdtTimeout ∧
      clockTick s = { s with sincePet := s.sincePet + 1 }) := by
  unfold clockTick
  split_ifs with ha ht
  · exact .inr (.inl ⟨ha, ht, rfl⟩)
  · exact .inr (.inr ⟨ha, Nat.lt_of_not_le ht, rfl⟩)
  · exact .inl ⟨by simpa using ha, rfl⟩

theorem bootStep_cases (s : State) :
    (s.boot = .registersReset ∧ bootStep s = { s with boot := .platformReady }) ∨
    (s.boot = .platformReady ∧ bootStep s = { s with boot := .watchdogArmed, sincePet := 0 }) ∨
    (s.boot = .watchdogArmed ∧
      bootStep s = { s with boot := .samplingStarted, outputs := s.outputs ++ [.sampleStart] }) ∨
    (s.boot = .samplingStarted ∧ bootStep s = { s with boot := .running }) ∨
    (s.boot = .running ∧ bootStep s = s) := by
  unfold bootStep
  cases h : s.boot <;> simp

theorem ownWork_some {s t : State} (h : ownWork s = some t) :
    (∃ fb ref, s.control = .running fb ref ∧ t = runControlLaw fb ref s) ∨
    (s.control = .dutyWritten ∧ t = returnFromInterrupt s) ∨
    (s.control = .idle ∧ s.boot ≠ .running ∧ t = bootStep s) ∨
    (s.control = .idle ∧ s.boot = .running ∧ s.samplePending = true ∧ t = servePending s) := by
  unfold ownWork at h
  split at h
  · rename_i fb ref hc
    exact .inl ⟨fb, ref, hc, by cases h; rfl⟩
  · rename_i hc
    exact .inr (.inl ⟨hc, by cases h; rfl⟩)
  · rename_i hc
    split_ifs at h with hb hp
    · exact .inr (.inr (.inl ⟨hc, hb, by cases h; rfl⟩))
    · exact .inr (.inr (.inr ⟨hc, by simpa using hb, hp, by cases h; rfl⟩))

theorem ownWork_none {s : State} :
    ownWork s = none ↔ s.control = .idle ∧ s.boot = .running ∧ s.samplePending = false := by
  unfold ownWork
  cases hc : s.control <;> by_cases hb : s.boot = .running <;> cases hp : s.samplePending <;> simp [hb]

/-- The pair a pending interrupt is served on is one of those recorded (R243). -/
theorem servedPair_mem {s : State} (h : s.results ≠ []) : servedPair s ∈ s.results := by
  unfold servedPair
  split
  · contradiction
  · rename_i p hp
    simp [hp]
  · rename_i p q ps hp
    rw [hp]
    have hlt : Config.lostTriggerChoice s.draws % (ps.length + 2) < (p :: q :: ps).length :=
      Nat.mod_lt _ (by omega)
    rw [List.getD_eq_getElem _ _ hlt]
    exact List.getElem_mem hlt

end Sys2Proof.Machine
end

