-- ==== Sys2Proof/Laws/Commands.lean ====
section
/-! SUPPORT. What a command and a POLL's first micro-step can do, and how `decode` reads a word's fields. -/

namespace Sys2Proof.Machine

open Sys2Proof

theorem field_toNat (w : Word) (lo len : Nat) :
    (field w lo len).toNat = w.toNat / 2 ^ lo % 2 ^ len := by
  simp [field, BitVec.extractLsb'_toNat, Nat.shiftRight_eq_div_pow]

theorem field_eq_ofNat (w : Word) (lo len : Nat) :
    field w lo len = BitVec.ofNat len (w.toNat / 2 ^ lo) := by
  apply BitVec.eq_of_toNat_eq
  simp [field_toNat]

theorem opcode_eq_iff (w : Word) (n : Nibble) : field w 0 4 = n ↔ w.toNat % 16 = n.toNat := by
  rw [← BitVec.toNat_inj, field_toNat]
  simp

theorem exec_ignoredOf (opc : Nibble) (s : State) : exec (ignoredOf opc) s = .next s := by
  unfold ignoredOf
  split <;> rfl

/-- Everything a command can do: it completes and writes at most the registers of spec/43_commands.md R203. -/
theorem exec_command (i : Instr) (h : i.isCommand = true) (s : State) :
    ∃ t, exec i s = .next t ∧ t = { s with
      controller := { s.controller with target := t.controller.target },
      period := t.period, dutyCap := t.dutyCap, auxDuty := t.auxDuty,
      fade := { t.fade with lastAppliedMask := s.fade.lastAppliedMask } } := by
  cases i <;> simp [Instr.isCommand] at h
  case tune per maxd =>
    by_cases hh : s.cfg.hasTune = true
    · exact ⟨writeCap maxd (writePeriod per s), by simp [exec, execTune, hh], rfl⟩
    · exact ⟨s, by simp [exec, execTune, hh], rfl⟩
  all_goals exact ⟨_, rfl, rfl⟩

/-- Everything a POLL's first micro-step can do: as a command, or nothing on an idle poll (R200, R201). -/
theorem applyFresh_total (fresh : Bool) (w : Word) (s : State) :
    ∃ u, applyFresh fresh w s = .next u ∧
      (fresh = true → exec (decodeCommand s.cfg.hasTune w) s = .next u) ∧
      (fresh = false → u = s) ∧
      u = { s with
        controller := { s.controller with target := u.controller.target },
        period := u.period, dutyCap := u.dutyCap, auxDuty := u.auxDuty,
        fade := { u.fade with lastAppliedMask := s.fade.lastAppliedMask } } := by
  cases fresh with
  | false => exact ⟨s, rfl, by simp, by simp, rfl⟩
  | true =>
    obtain ⟨t, h1, h2⟩ := exec_command _ (decodeCommand_isCommand s.cfg.hasTune w) s
    refine ⟨t, ?_, fun _ => h1, by simp, h2⟩
    simp [applyFresh, applyCommand_eq_exec (decodeCommand_isCommand _ _), h1]

end Sys2Proof.Machine
end

