-- ==== Sys2Proof/Laws/PerInstr.lean ====
section
/-! SUPPORT. Statements for all instructions, one lemma per constructor: each instruction's encoding carries
the fixed bits of its row of spec/opcode_table.json. -/

namespace Sys2Proof.Laws

open Sys2Proof

/-- The value of a row's fixed bits (its "match"): the opcode of a command row (spec/30_encoding.md R81), the
kind code of an event row (R90). -/
def rowMatch : Instr → Nat
  | .settarget _ => 1
  | .digit _ => 2
  | .fadecfg _ _ _ _ => 3
  | .tune _ _ => 4
  | .aux _ => 5
  | .ignored0 => 0
  | .ignored4 => 4
  | .ignored6 => 6
  | .ignored7 => 7
  | .ignored8 => 8
  | .ignored9 => 9
  | .ignored10 => 10
  | .ignored11 => 11
  | .ignored12 => 12
  | .ignored13 => 13
  | .ignored14 => 14
  | .ignored15 => 15
  | .sample _ _ => 0
  | .poll _ _ => 1
  | .fade _ => 2
  | .reset => 3

/-- The fixed bits of an encoding: bits 3:0 of a command word (mask 0xF), bits 1:0 of an event word (0x3). -/
def fixedBits : Encoding → Nat
  | .command w => w.toNat % 16
  | .event w => w % 4

/-- The instruction's encoding is of its row's sort and has its row's fixed bits. -/
def TableMatch.Statement (i : Instr) : Prop :=
  fixedBits (encode i) = rowMatch i ∧ ((∃ w, encode i = .command w) ↔ i.isCommand = true)

theorem TableMatch.settarget (value : Half) : TableMatch.Statement (.settarget value) :=
  ⟨by simp only [encode, fixedBits, rowMatch, BitVec.toNat_ofNat]; omega, by simp [encode, Instr.isCommand]⟩

theorem TableMatch.digit (code : Nibble) : TableMatch.Statement (.digit code) :=
  ⟨by simp only [encode, fixedBits, rowMatch, BitVec.toNat_ofNat]; omega, by simp [encode, Instr.isCommand]⟩

theorem TableMatch.fadecfg (codeA codeB : Nibble) (t0 t1 : Byte) :
    TableMatch.Statement (.fadecfg codeA codeB t0 t1) :=
  ⟨by simp only [encode, fixedBits, rowMatch, BitVec.toNat_ofNat]; omega, by simp [encode, Instr.isCommand]⟩

theorem TableMatch.tune (per maxd : Byte) : TableMatch.Statement (.tune per maxd) :=
  ⟨by simp only [encode, fixedBits, rowMatch, BitVec.toNat_ofNat]; omega, by simp [encode, Instr.isCommand]⟩

theorem TableMatch.aux (value : Half) : TableMatch.Statement (.aux value) :=
  ⟨by simp only [encode, fixedBits, rowMatch, BitVec.toNat_ofNat]; omega, by simp [encode, Instr.isCommand]⟩

theorem TableMatch.ignored0 : TableMatch.Statement .ignored0 := ⟨rfl, by simp [encode, Instr.isCommand]⟩

theorem TableMatch.ignored4 : TableMatch.Statement .ignored4 := ⟨rfl, by simp [encode, Instr.isCommand]⟩

theorem TableMatch.ignored6 : TableMatch.Statement .ignored6 := ⟨rfl, by simp [encode, Instr.isCommand]⟩

theorem TableMatch.ignored7 : TableMatch.Statement .ignored7 := ⟨rfl, by simp [encode, Instr.isCommand]⟩

theorem TableMatch.ignored8 : TableMatch.Statement .ignored8 := ⟨rfl, by simp [encode, Instr.isCommand]⟩

theorem TableMatch.ignored9 : TableMatch.Statement .ignored9 := ⟨rfl, by simp [encode, Instr.isCommand]⟩

theorem TableMatch.ignored10 : TableMatch.Statement .ignored10 := ⟨rfl, by simp [encode, Instr.isCommand]⟩

theorem TableMatch.ignored11 : TableMatch.Statement .ignored11 := ⟨rfl, by simp [encode, Instr.isCommand]⟩

theorem TableMatch.ignored12 : TableMatch.Statement .ignored12 := ⟨rfl, by simp [encode, Instr.isCommand]⟩

theorem TableMatch.ignored13 : TableMatch.Statement .ignored13 := ⟨rfl, by simp [encode, Instr.isCommand]⟩

theorem TableMatch.ignored14 : TableMatch.Statement .ignored14 := ⟨rfl, by simp [encode, Instr.isCommand]⟩

theorem TableMatch.ignored15 : TableMatch.Statement .ignored15 := ⟨rfl, by simp [encode, Instr.isCommand]⟩

theorem TableMatch.sample (fbRaw refRaw : Sample) : TableMatch.Statement (.sample fbRaw refRaw) :=
  ⟨by simp only [encode, fixedBits, rowMatch]; omega, by simp [encode, Instr.isCommand]⟩

theorem TableMatch.poll (fresh : Bool) (word : Word) : TableMatch.Statement (.poll fresh word) :=
  ⟨by simp only [encode, fixedBits, rowMatch]; omega, by simp [encode, Instr.isCommand]⟩

theorem TableMatch.fade (ts : Nat) : TableMatch.Statement (.fade ts) :=
  ⟨by simp only [encode, fixedBits, rowMatch]; omega, by simp [encode, Instr.isCommand]⟩

theorem TableMatch.reset : TableMatch.Statement .reset := ⟨rfl, by simp [encode, Instr.isCommand]⟩

end Sys2Proof.Laws
end

