-- ==== Sys2Proof/Laws/Step.lean ====
section
/-! SUPPORT. What a step can do, said once. -/

namespace Sys2Proof.Machine

open Sys2Proof

/-- Everything running one input can do when it answers a next state. -/
theorem runInput_next {inp : Input} {s t : State} (h : runInput inp s = .next t) :
    (∃ w i, inp = .event w ∧ decodeEvent s.cfg w = .ok i ∧ exec i s = .next t) ∨
    (∃ fresh w, inp = .pollApply fresh w ∧ microApply fresh w s = .next t) ∨
    (∃ w, inp = .pollApplyPeriod w ∧ microApplyPeriod w s = .next t) ∨
    (inp = .pollApplyCap ∧ microApplyCap s = .next t) ∨
    (inp = .pollRdfb ∧ microRdfb s = .next t) ∨
    (inp = .pollRdref ∧ microRdref s = .next t) ∨
    (∃ ts, inp = .fadeBegin ts ∧ microFadeBegin ts s = .next t) ∨
    (inp = .fadeEnd ∧ microFadeEnd s = .next t) ∨
    (∃ fb ref, inp = .conversion fb ref ∧ t = conversionCompletes fb ref s) ∨
    (inp = .periodBoundary ∧ t = periodEnds s) ∨
    (inp = .tick ∧ t = clockTick s) ∨
    (inp = .proceed ∧ t = (ownWork s).getD s) := by
  unfold runInput at h
  cases inp with
  | event w =>
    simp only at h
    split at h
    · rename_i i hd
      exact .inl ⟨w, i, rfl, hd, h⟩
    · cases h
  | pollApply fresh w => exact .inr (.inl ⟨fresh, w, rfl, h⟩)
  | pollApplyPeriod w => exact .inr (.inr (.inl ⟨w, rfl, h⟩))
  | pollApplyCap => simpa using h
  | pollRdfb => simpa using h
  | pollRdref => simpa using h
  | fadeBegin ts => simpa using h
  | fadeEnd => simpa using h
  | conversion fb ref =>
    simp only [Host.Outcome.next.injEq] at h
    simp [h]
  | periodBoundary =>
    simp only [Host.Outcome.next.injEq] at h
    simp [h]
  | tick =>
    simp only [Host.Outcome.next.injEq] at h
    simp [h]
  | proceed =>
    simp only [Host.Outcome.next.injEq] at h
    simp [h]

/-- Everything a step can do when it answers a next state: the configuration is accepted, and the step waits
with nothing to do, does the core's own work, or runs the head of the inbox. -/
theorem step_next {s t : State} (h : step s = .next t) :
    s.cfg.wf = true ∧
      ((s.inbox = [] ∧ ownWork s = none ∧ t = s) ∨
       ownWork s = some t ∨
       ∃ inp rest, s.inbox = inp :: rest ∧ (takenAtOnce s.cfg inp = true ∨ ownWork s = none) ∧
         runInput inp (setInbox rest s) = .next t) := by
  unfold step at h
  split_ifs at h with hw
  refine ⟨hw, ?_⟩
  unfold advance at h
  split at h
  · rename_i hi
    cases ho : ownWork s with
    | none => exact .inl ⟨hi, rfl, by rw [ho] at h; cases h; rfl⟩
    | some u => exact .inr (.inl (by rw [ho] at h; cases h; rfl))
  · rename_i inp rest hi
    split_ifs at h with ht
    · exact .inr (.inr ⟨inp, rest, hi, .inl ht, h⟩)
    · split at h
      · rename_i u ho
        exact .inr (.inl (by cases h; exact ho))
      · rename_i ho
        exact .inr (.inr ⟨inp, rest, hi, .inr ho, h⟩)

/-- With no work of the core's own, the step runs the head of the inbox. -/
theorem step_head {s : State} {inp : Input} {rest : List Input} (hw : s.cfg.wf = true)
    (ho : ownWork s = none) : step (setInbox (inp :: rest) s) = runInput inp (setInbox rest s) := by
  have h : ownWork (setInbox (inp :: rest) s) = none := by
    rw [ownWork_none] at ho ⊢
    exact ho
  unfold step advance
  rw [if_pos (by exact hw)]
  simp [h]
  rfl

/-- An input that happens at once is run whatever the core is doing. -/
theorem step_at_once {s : State} {inp : Input} {rest : List Input} (hw : s.cfg.wf = true)
    (ht : takenAtOnce s.cfg inp = true) :
    step (setInbox (inp :: rest) s) = runInput inp (setInbox rest s) := by
  unfold step advance
  rw [if_pos (by exact hw)]
  simp [ht]
  rfl

/-- A run goes on from the next state of its first step. -/
theorem run_of_step {n : Nat} {s t : State} (h : step s = .next t) :
    core.run (n + 1) s = core.run n t := by
  have h' : core.step s = .next t := h
  simp only [Host.Core.run, h']

/-- The premises on a stream, input by input (R276). -/
theorem environmentPremises_cons (c : Config) (due : Bool) (inp : Input) (rest : List Input) :
    environmentPremises c due (inp :: rest) =
      (operandsFit c inp &&
        if completesConversion c inp then due && environmentPremises c false rest
        else environmentPremises c (due || inp == .periodBoundary) rest) := by
  simp only [environmentPremises, sampledOncePerPeriod, List.all_cons]
  cases operandsFit c inp <;> cases completesConversion c inp <;> cases due <;> simp

/-- A completed conversion is no period boundary, and the other way round. -/
@[simp] theorem completesConversion_periodBoundary (c : Config) :
    completesConversion c .periodBoundary = false := rfl

/-- Of the event words, exactly those of SAMPLE complete a conversion (R242). -/
theorem completesConversion_event {c : Config} {w : Nat} {i : Instr} (h : decodeEvent c w = .ok i) :
    completesConversion c (.event w) = true ↔ ∃ fbRaw refRaw, i = .sample fbRaw refRaw := by
  simp only [completesConversion, h]
  cases i <;> simp

end Sys2Proof.Machine
end

