-- ==== Sys2Proof/Tests/Slice0.lean ====
section
/-! SUPPORT. Tests: what the well-formedness checks refuse, words written out from the spec, one step of each
instruction on values of spec/95_test_vectors.md, and one witness for each statement with hypotheses. -/

namespace Sys2Proof.Tests

open Sys2Proof Sys2Proof.Machine

/-! ## Well-formedness: one ill-formed term for each check -/

theorem test_wf_reference : Config.reference.wf = true := by decide
theorem test_wf_refuses_integral_bounds : { Config.reference with iMin := 401 }.wf = false := by decide
theorem test_wf_refuses_k : { Config.reference with k := 7 }.wf = false := by decide
theorem test_wf_refuses_p_shift : { Config.reference with pShift := 32 }.wf = false := by decide
theorem test_wf_refuses_i_shift : { Config.reference with iShift := 32 }.wf = false := by decide
theorem test_wf_refuses_d_shift : { Config.reference with dShift := 32 }.wf = false := by decide
theorem test_wf_refuses_md_a : { Config.reference with mdA := 32 }.wf = false := by decide
theorem test_wf_refuses_md_b : { Config.reference with mdB := 32 }.wf = false := by decide
theorem test_wf_refuses_md_c : { Config.reference with mdC := 32 }.wf = false := by decide
theorem test_wf_refuses_ct_s1 : { Config.reference with ctS1 := 32 }.wf = false := by decide
theorem test_wf_refuses_ct_s2 : { Config.reference with ctS2 := 32 }.wf = false := by decide
theorem test_wf_refuses_ct_s3 : { Config.reference with ctS3 := some 32 }.wf = false := by decide
theorem test_wf_refuses_period : { Config.reference with periodDefault := 0 }.wf = false := by decide
theorem test_wf_refuses_ts_shift : { Config.reference with tsShift := 25 }.wf = false := by decide
/-- R7 and R11: a shift of 32, although R6's range allows it under `TS_BITS` = 40. -/
theorem test_wf_refuses_ts_shift_32 :
    { Config.reference with tsShift := 32, tsBits := 40 }.wf = false ∧
    { Config.reference with tsShift := 31, tsBits := 40 }.wf = true := by decide
theorem test_wf_refuses_dither_rot : { Config.reference with ditherRot := 8 }.wf = false := by decide
theorem test_wf_refuses_gap_hold : { Config.reference with gapHold := 0 }.wf = false := by decide
theorem test_wf_refuses_wdt_timeout : { Config.reference with wdtTimeout := 0 }.wf = false := by decide
theorem test_wf_refuses_eleven_masks : digitMasksWf (Config.reference.digitMasks.drop 1) = false := by decide
theorem test_wf_refuses_repeated_mask : digitMasksWf (Config.reference.digitMasks.set 11 1) = false := by
  decide
theorem test_wf_refuses_two_hot_mask : digitMasksWf (Config.reference.digitMasks.set 11 3) = false := by
  decide
/-- R8: `CTMAX` too large. -/
theorem test_wf_refuses_ct_wrap :
    { Config.reference with maxTarget := 65535, ctS1 := 0 }.noWrap = false := by decide
/-- R8: `EMAX << P_SHIFT` too large. -/
theorem test_wf_refuses_p_wrap : { Config.reference with pShift := 15 }.noWrap = false := by decide
/-- R8: `IMAX + EMAX` too large. -/
theorem test_wf_refuses_i_wrap : { Config.reference with iMax := 536870912 }.noWrap = false := by decide
/-- R8: the derivative's bound too large. -/
theorem test_wf_refuses_d_wrap :
    { Config.reference with dMode := .add, dDir := .shl, dShift := 14 }.noWrap = false := by decide

theorem test_instr_wf_tune : (Instr.tune 0 0).wf { Config.reference with hasTune := false } = false := by
  decide
theorem test_instr_wf_ignored4 : Instr.ignored4.wf Config.reference = false := by decide
theorem test_instr_wf_fade : (Instr.fade (2 ^ 32)).wf Config.reference = false := by decide

/-! ## Decoding: words written out from the formats (30_encoding.md R82 to R85, R95; 95_test_vectors.md V9) -/

theorem test_decode_settarget : decodeCommand true 0xFFFF0001 = .settarget 65535 := by decide
theorem test_decode_digit : decodeCommand true 0xFFF3FFF2 = .digit 3 := by decide
theorem test_decode_fadecfg : decodeCommand true 0x0A322103 = .fadecfg 1 2 50 10 := by decide
theorem test_decode_tune : decodeCommand true 0x3CC80004 = .tune 200 60 := by decide
theorem test_decode_aux : decodeCommand true 0x12340005 = .aux 0x1234 := by decide
theorem test_decode_ignored0 : decodeCommand true 0x00000000 = .ignored0 := by decide
theorem test_decode_ignored4 : decodeCommand false 0x3CC80004 = .ignored4 := by decide
theorem test_decode_ignored6 : decodeCommand true 0xFFFFFFF6 = .ignored6 := by decide
theorem test_decode_ignored7 : decodeCommand true 0xFFFFFFF7 = .ignored7 := by decide
theorem test_decode_ignored8 : decodeCommand true 0x12345678 = .ignored8 := by decide
theorem test_decode_ignored9 : decodeCommand true 0x00000009 = .ignored9 := by decide
theorem test_decode_ignored10 : decodeCommand true 0x0000000A = .ignored10 := by decide
theorem test_decode_ignored11 : decodeCommand true 0x0000000B = .ignored11 := by decide
theorem test_decode_ignored12 : decodeCommand true 0x0000000C = .ignored12 := by decide
theorem test_decode_ignored13 : decodeCommand true 0x0000000D = .ignored13 := by decide
theorem test_decode_ignored14 : decodeCommand true 0x0000000E = .ignored14 := by decide
theorem test_decode_ignored15 : decodeCommand true 0x0000000F = .ignored15 := by decide

/-- SAMPLE 100, 373: kind 00, then 0x0064 and 0x0175 (log entry 3). -/
theorem test_decode_sample : decodeEvent Config.reference 0x0175006400 = .ok (.sample 100 373) := by decide
/-- POLL TARGET 150: kind 01, fresh 01, then 0x00960001 (log entry 3). -/
theorem test_decode_poll : decodeEvent Config.reference 0x009600010101 = .ok (.poll true 0x00960001) := by
  decide
/-- FADE 0xE1: kind 02, then the timestamp (log entry 3). -/
theorem test_decode_fade : decodeEvent Config.reference 0xE102 = .ok (.fade 0xE1) := by decide
theorem test_decode_reset : decodeEvent Config.reference 0x03 = .ok .reset := by decide

theorem test_decode_refuses_kind : decodeEvent Config.reference 0x04 = .error .unknownKind := by decide
theorem test_decode_refuses_sample : decodeEvent Config.reference 0x040000 = .error .sampleTooWide := by decide
theorem test_decode_refuses_fresh : decodeEvent Config.reference 0x0201 = .error .freshNotABit := by decide
theorem test_decode_refuses_timestamp :
    decodeEvent Config.reference 0x10000000002 = .error .timestampTooWide := by decide
theorem test_decode_refuses_trailing : decodeEvent Config.reference 0x0103 = .error .trailingBits := by decide

/-- The table's rows as the host numbers them: a command row, an event row (log entry 4). -/
theorem test_table_command : decodeTableWord 32 0x00000005 = some (.aux 0) := by decide
theorem test_table_event : decodeTableWord 8 0x02 = some (.fade 0) := by decide

/-! ## One step of each instruction, on values of the spec -/

/-- A field of the next state, if there is one. -/
def after {α : Type} (r : Result) (f : State → α) : Option α :=
  match r with
  | .next s => some (f s)
  | .fault _ => none
  | .refused _ => none

/-- The reset state after boot. -/
def ready : State := { State.reset with boot := .running }

/-- The same, at FADE's turn, in the configuration of 95_test_vectors.md E8. -/
def readyToFade : State :=
  { ready with
    mainPhase := .fade,
    fade :=
      { maskA := 1, maskB := 2, threshold0 := 10, threshold1 := 50, fadeEnabled := true,
        lastAppliedMask := 1 },
    outMask := 1 }

/-- The same display at POLL's turn. -/
def readyPolling : State := { readyToFade with mainPhase := .poll }

/-- `ready` with a target of 150 (95_test_vectors.md V8). -/
def regulating : State := { ready with controller := { ready.controller with target := 150 } }

/-- A block whose opcode 4 is not built in. -/
def withoutTune : State := State.resetOf { Config.reference with hasTune := false }

/-- 95_test_vectors.md E1. -/
theorem test_settarget_clamps :
    after (exec (.settarget 1000) ready) (·.controller.target) = some 200 ∧
    after (exec (.settarget 200) ready) (·.controller.target) = some 200 := by decide
/-- 95_test_vectors.md V9, rows of DIGIT. -/
theorem test_digit :
    after (exec (.digit 3) readyToFade) (fun t => (t.fade.maskA, t.fade.maskB, t.fade.fadeEnabled)) =
      some (4, 2, false) ∧
    after (exec (.digit 14) readyToFade) (·.fade.maskA) = some 0 := by decide
/-- 95_test_vectors.md V9, `FADECFG 1, 2, 50, 10`. -/
theorem test_fadecfg :
    after (exec (.fadecfg 1 2 50 10) ready) (·.fade) =
      some { maskA := 1, maskB := 2, threshold0 := 50, threshold1 := 10, fadeEnabled := true,
             lastAppliedMask := 0 } := by decide
/-- 95_test_vectors.md V9, `TUNE 200, 60`, built in and not. -/
theorem test_tune :
    after (exec (.tune 200 60) ready) (fun t => (t.period, t.dutyCap)) = some (200, 60) ∧
    after (exec (.tune 200 60) withoutTune) (fun t => (t.period, t.dutyCap)) = some (240, 255) := by decide
/-- 95_test_vectors.md V9, `AUX 0x1234`. -/
theorem test_aux : after (exec (.aux 0x1234) ready) auxDutyPort = some 0x1234 := by decide
/-- 95_test_vectors.md V9, opcode 7. -/
theorem test_ignored7 : after (exec .ignored7 regulating) id = some regulating := by decide
/-- 95_test_vectors.md V8, row 2, from the registers of row 1. -/
theorem test_sample_second_cycle :
    after (exec (.sample 100 373) { regulating with
        controller :=
          { target := 150, filteredFeedback := 100, filteredReference := 373, integral := 370,
            compensatedTarget := 470, maxDuty := 22, dutyCommand := 22, previousError := 370 } })
      (·.controller) =
      some { target := 150, filteredFeedback := 175, filteredReference := 653, integral := 1018,
             compensatedTarget := 823, maxDuty := 37, dutyCommand := 37, previousError := 648 } := by decide
/-- 95_test_vectors.md P4, line 12: negative values, the lower integral bound. -/
theorem test_sample_negative :
    after (exec (.sample 1023 373) { ready with
        controller :=
          { target := 0, filteredFeedback := 1023, filteredReference := 1228, integral := 577,
            compensatedTarget := 0, maxDuty := 70, dutyCommand := 0, previousError := -1023 } })
      (fun t => (t.controller.filteredFeedback, t.controller.integral, t.controller.dutyCommand)) =
      some (1791, -400, 0) := by decide
/-- 95_test_vectors.md P1, line 7: the status word of the registers then. -/
theorem test_poll_status :
    after (exec (.poll false 0) { ready with
        controller := { ready.controller with filteredFeedback := 232, filteredReference := 863 } })
      (fun t => (t.status, t.mainPhase)) = some (0x35C3A000, .fade) := by decide
/-- 95_test_vectors.md V9: `fresh` = 0 decodes nothing, `fresh` = 1 applies the word. -/
theorem test_poll_fresh :
    after (exec (.poll false 0x00960001) ready) (·.controller.target) = some 0 ∧
    after (exec (.poll true 0x00960001) ready) (·.controller.target) = some 150 := by decide
/-- 42_fade.md R175's example: phase 30 shows `mask_b` through the gap. -/
theorem test_fade_changes :
    after (exec (.fade 0xE1) readyToFade) (fun t => (t.outMask, t.outputs.drop 5)) =
      some (2, [.digitBus 0, .gapHold 1, .digitBus 2]) := by decide
/-- 95_test_vectors.md P2, line 5: an unchanged mask writes nothing. -/
theorem test_fade_unchanged :
    after (exec (.fade 0x50) readyToFade) (fun t => (t.outMask, t.outputs.drop 5)) = some (1, []) := by decide
/-- 95_test_vectors.md V14. -/
theorem test_reset :
    after (exec .reset { readyToFade with period := 100, dutyCap := 60 })
      (fun t => (t.period, t.dutyCap, t.outMask, t.mainPhase)) = some (240, 255, 0, .poll) := by decide

/-- 95_test_vectors.md V6, the rows with a sign. -/
theorem test_dterm :
    dTerm { Config.reference with dMode := .add, dDir := .shr, dShift := 1 } (-5) 0 = -3 ∧
    dTerm { Config.reference with dMode := .sub, dDir := .shr, dShift := 3 } (-100) (-50) = 6 ∧
    dTerm { Config.reference with dMode := .add, dDir := .shl, dShift := 2 } 370 300 = 280 := by decide
/-- 95_test_vectors.md E7 and V3. -/
theorem test_swmul :
    swmulRun 0xFFFF 0xFFFF = (0xFFFE0001, 16) ∧ swmulRun 1 0xFFFF = (0xFFFF, 1) ∧
    swmulRun 1492 150 = (223800, 8) ∧ swmulRun 5 0 = (0, 0) := by decide
/-- 95_test_vectors.md V11. -/
theorem test_phase :
    phase Config.reference 0x23 = 0x32 ∧ phase Config.reference 0x1C3 = 0x3C ∧
    phase Config.reference 0x12345678 = 0x87 := by decide
/-- 70_reset_and_hazards.md R274 (b): the duty ceiling after reset under a constant reference of 373. -/
theorem test_duty_ceiling_ramp :
    [1, 2, 3, 4, 5].map (fun n => (maxDutyOf Config.reference
      ((fun f => iir Config.reference f 373)^[n] 0) 240 255).toNat) = [22, 37, 49, 59, 65] := by decide
/-- `ITER OFF, 0` and `IDLE 0` (30_encoding.md R94): each turns the main loop once. -/
theorem test_pseudo_instructions :
    decodeCommand true offWord = .digit 0 ∧ (decodeCommand true nopWord).isIgnored = true ∧
    after (core.run 2 (setInbox (iterStatements offWord 0 ++ idleStatements 0) readyPolling)) (·.fade.maskA) =
      some 0 ∧
    after (core.run 4 (setInbox (iterStatements offWord 0 ++ idleStatements 0) readyPolling)) (·.inbox) =
      some [] := by decide
/-- The first step of the reset machine is boot step 2 (70_reset_and_hazards.md R275). -/
theorem test_first_boot_step : after (step State.reset) (·.boot) = some .platformReady := by decide
/-- The probe's placement runs its instruction in one step (log entry 4). -/
theorem test_fetch_command :
    after (step (State.reset.withFetchWord 32 0x12340005)) (·.auxDuty) = some 0x1234 := by decide
theorem test_fetch_event :
    after (step (State.reset.withFetchWord 8 1)) (·.mainPhase) = some .fade := by decide

/-! ## Witnesses: states and operands that meet each statement's hypotheses together -/

/-- Registers as after several SAMPLEs, in the ranges of 10_state.md R23 to R30. -/
def busyController : ControllerState where
  target := 150
  filteredFeedback := 4092
  filteredReference := 4092
  integral := -400
  compensatedTarget := 110396
  maxDuty := 233
  dutyCommand := 233
  previousError := -4092

/-- A block at work: registers at the ends of their ranges, a digit on. -/
def busy : State :=
  { readyToFade with
    controller := busyController, switchCompare := 233, switchActive := 22, status := 0xFFFFF000,
    sincePet := 15, outputs := State.reset.outputs ++ [.digitBus 0, .gapHold 1, .digitBus 1] }

/-- A conversion waits to be served, with another lost behind it, before an idle POLL. -/
def pending : State :=
  { ready with
    samplePending := true, results := [(100, 373), (101, 374)], inbox := [.event 1] }

theorem witness_EncodingsDecodeBack :
    (Instr.tune 255 255).wf Config.reference = true ∧ (Instr.fade (2 ^ 32 - 1)).wf Config.reference = true ∧
    Instr.ignored4.wf { Config.reference with hasTune := false } = true := by decide
theorem witness_AcceptedEventWordsAreEncodings :
    decodeEvent Config.reference 0x03FF03FF00 = .ok (.sample 1023 1023) ∧
    decodeEvent Config.reference 0xFFFFFFFF0001 = .ok (.poll false 0xFFFFFFFF) ∧
    decodeEvent Config.reference 0xFFFFFFFF02 = .ok (.fade 0xFFFFFFFF) ∧
    decodeEvent Config.reference 3 = .ok .reset := by decide
theorem witness_EveryCommandWordDecodesByItsFields :
    (0xFFFF0001 : Word).toNat % 16 = 1 ∧ (0x000F0002 : Word).toNat % 16 = 2 ∧
    (0xFFFFFF03 : Word).toNat % 16 = 3 ∧ (0xFFFF0004 : Word).toNat % 16 = 4 ∧
    (0xFFFF0005 : Word).toNat % 16 = 5 ∧ (0 : Word).toNat % 16 = 0 ∧ 6 ≤ (6 : Word).toNat % 16 ∧
    6 ≤ (15 : Word).toNat % 16 := by decide
theorem witness_IgnoredBitsDoNotMatter :
    (0xFFF3FFF2 : Word) &&& meaningfulBits true ((0x00030002 : Word).extractLsb' 0 4) =
      0x00030002 &&& meaningfulBits true ((0x00030002 : Word).extractLsb' 0 4) := by decide
theorem witness_WorkedEncodingsHold : State.reset.cfg = Config.reference := by decide
/-- DIGIT's and FADECFG's clauses at codes 0, 13, 1 and 12, and the mask table's. -/
theorem witness_DigitSelectsOneMask :
    busy.cfg.wf = true ∧ 12 < (13 : Nibble).toNat ∧ 1 ≤ (1 : Nibble).toNat ∧ (12 : Nibble).toNat ≤ 12 ∧
    digitMask busy.cfg 1 = 1 ∧ digitMask busy.cfg 12 = 0x0800 ∧ digitMask busy.cfg 13 = 0 := by decide
theorem witness_FadecfgStoresMasksAndThresholds : busy.cfg.wf = true ∧ 12 < (15 : Nibble).toNat := by decide
theorem witness_DigitMaskIsInjectiveAndOneHot :
    Config.reference.wf = true ∧ digitMask Config.reference 12 = 1#16 <<< 11 := by decide
theorem witness_TuneWritesPeriodAndCap : busy.cfg.hasTune = true ∧ withoutTune.cfg.hasTune = false := by decide
theorem witness_PollAppliesThenPublishes : pollTurn regulating = true := by decide
theorem witness_StatusWordUnpacksToPostShiftValues :
    Config.reference.k ≤ 6 ∧ inFilterRange Config.reference 0 ∧ inFilterRange Config.reference 4092 := by
  unfold inFilterRange
  decide
theorem witness_BrokenAlternationIsRefused : fadeTurn busy = true ∧ pollTurn ready = true := by decide
theorem witness_PollIsItsMicroSteps :
    regulating.cfg.wf = true ∧ pollTurn regulating = true ∧ regulating.samplePending = false ∧
    decode regulating.cfg (.event 0x3CC800040101) = .ok (.poll true 0x3CC80004) ∧
    decodeCommand regulating.cfg.hasTune 0x3CC80004 = .tune 200 60 := by decide
theorem witness_SampleBetweenReadsTearsTheStatusWord :
    let s := setPolling .applied regulating
    s.cfg.wf = true ∧ s.boot = .running ∧ s.control = .idle ∧ s.samplePending = false ∧
    s.polling = .applied ∧ decode s.cfg (.event 0x0175006400) = .ok (.sample 100 373) := by decide
theorem witness_SampleInsideTuneSeesTheTornPair :
    ready.cfg.wf = true ∧ pollTurn ready = true ∧ ready.samplePending = false ∧
    decodeCommand ready.cfg.hasTune 0x3C640004 = .tune 100 60 ∧
    decode ready.cfg (.event 0x0175006400) = .ok (.sample 100 373) := by decide
theorem witness_FadeAppliesTheMaskThroughTheGap :
    fadeTurn busy = true ∧ fadeEval busy.fade (phase busy.cfg 0x50) = busy.fade.lastAppliedMask ∧
    fadeEval busy.fade (phase busy.cfg 0xE1) ≠ busy.fade.lastAppliedMask := by decide
/-- FadeEval's clauses at the phases where they meet: 9 and 10, 49 and 50. -/
theorem witness_FadeEvalFollowsTheThresholds :
    busy.fade.fadeEnabled = true ∧ ready.fade.fadeEnabled = false ∧
    fadeEval busy.fade 9 = 1 ∧ fadeEval busy.fade 10 = 2 ∧ fadeEval busy.fade 49 = 2 ∧
    fadeEval busy.fade 50 = 0 ∧ fadeEval { busy.fade with threshold0 := 50, threshold1 := 10 } 20 = 1 := by
  decide
theorem witness_BrightnessSharesOfOneCycle :
    busy.fade.fadeEnabled = true ∧ busy.fade.threshold0.toNat ≤ busy.fade.threshold1.toNat ∧
    busy.fade.maskA ≠ busy.fade.maskB ∧ busy.fade.maskA ≠ 0 ∧ busy.fade.maskB ≠ 0 := by decide
/-- The ends of the rotation's range, and 42_fade.md R172's corner case: no rotation gives the counter. -/
theorem witness_PhaseVisitsEveryValueOncePerCycle :
    { Config.reference with ditherRot := 7 }.ditherRot ≤ 7 ∧
    phase { Config.reference with ditherRot := 7 } 0x1C3 = 0xE1 ∧
    phase { Config.reference with ditherRot := 0 } 0x1C3 = 0xC3 := by decide
theorem witness_SampleAndFadeCommute :
    fadeTurn busy = true ∧ busy.cfg.wf = true ∧ busy.samplePending = false ∧
    0xE1 < 2 ^ busy.cfg.tsBits ∧ decode busy.cfg (.event 0x0175006400) = .ok (.sample 100 373) ∧
    fadeEval busy.fade (phase busy.cfg 0xE1) ≠ busy.fade.lastAppliedMask := by decide
theorem witness_FilterStaysInRange :
    Config.reference.k ≤ 6 ∧ (1023 : Sample).toNat ≤ 1023 ∧ 0 ≤ (4092 : Word).toInt ∧
    (4092 : Word).toInt ≤ (1023 : Nat) * 2 ^ Config.reference.k := by decide
/-- 95_test_vectors.md V1: 400 and 403 are fixed under 100, 399 and 404 are not. -/
theorem witness_FilterFixedPointsAreAnInterval :
    Config.reference.k ≤ 6 ∧ iir Config.reference 400 100 = 400 ∧ iir Config.reference 403 100 = 403 ∧
    iir Config.reference 399 100 = 400 ∧ iir Config.reference 404 100 = 403 := by decide
theorem witness_FilterConvergesUnderConstantInput :
    (400 : Word).toInt ≤ ((100 : Sample).toNat : Int) * 2 ^ Config.reference.k ∧
    ((100 : Sample).toNat : Int) * 2 ^ Config.reference.k < (401 : Word).toInt := by decide
theorem witness_MaxDutyIsTheClampedShiftSum :
    Config.reference.k ≤ 6 ∧ inFilterRange Config.reference 4092 ∧
    maxDutyOf Config.reference 4092 240 60 = 60 ∧ maxDutyOf Config.reference 4092 100 255 = 100 := by
  unfold inFilterRange
  decide
theorem witness_MaxDutyGoldenValues :
    Config.reference.wf = true ∧ 86 ≤ min (240 : Half).toNat (255 : Byte).toNat ∧
    postShift Config.reference 1492 = 0x175 ∧ postShift Config.reference 960 = 0xF0 := by decide
theorem witness_CompTargetIsTheExactShiftSum :
    Config.reference.wf = true ∧ inFilterRange Config.reference 4092 ∧
    (200 : Half).toNat ≤ Config.reference.maxTarget.toNat ∧ compTarget Config.reference 4092 200 = 6891 := by
  unfold inFilterRange
  decide
theorem witness_SampleRunsTheControlCycle : sampleMayStart busy = true := by decide

/-- Integral bounds, derivative and third shift away from the reference. -/
def otherConfig : Config :=
  { Config.reference with
    iMin := 10, iMax := 20, dMode := .sub, dDir := .shl, dShift := 2, ctS3 := none, k := 0 }

theorem busyController_inv : ControllerInv Config.reference busyController :=
  { target_le := by decide
    feedback_range := by unfold inFilterRange; decide
    reference_range := by unfold inFilterRange; decide
    integral_window := .inr (by unfold inIntegralWindow; decide)
    compensated_range := by decide
    max_duty_range := by decide
    duty_range := by decide
    error_range := by decide }

theorem witness_ControlCycleIsExactUnderConditionW :
    Config.reference.wf = true ∧ ControllerInv Config.reference busyController ∧ otherConfig.wf = true :=
  ⟨by decide, busyController_inv, by decide⟩
/-- R107's clauses: 1600 + 5000, -400 - 5000, and the ends 1600 and -400 themselves. -/
theorem witness_IntegralSaturatesAtItsWindow :
    Config.reference.wf = true ∧ inIntegralWindow Config.reference 1600 ∧
    inIntegralWindow Config.reference (-400) ∧
    -(Config.reference.eMax : Int) ≤ (-5000 : Word).toInt ∧ (5000 : Word).toInt ≤ Config.reference.eMax ∧
    nextIntegral Config.reference 1600 5000 = 1600 ∧ nextIntegral Config.reference (-400) (-5000) = -400 ∧
    nextIntegral Config.reference 1600 (-1) = 1599 ∧ nextIntegral Config.reference 1230 370 = 1600 := by
  unfold inIntegralWindow
  decide
/-- Two states that differ in everything SAMPLE does not read. -/
theorem witness_SampleDependsOnlyOnItsInputs :
    let s' := { busy with
      mainPhase := .poll, auxDuty := 7, outMask := 0, status := 0, samplePending := true,
      controller := { busy.controller with compensatedTarget := 0, maxDuty := 0, dutyCommand := 0 } }
    sampleMayStart busy = true ∧ sampleMayStart s' = true ∧ s'.cfg = busy.cfg ∧
    s'.controller.filteredFeedback = busy.controller.filteredFeedback ∧
    s'.controller.filteredReference = busy.controller.filteredReference ∧
    s'.controller.integral = busy.controller.integral ∧
    s'.controller.previousError = busy.controller.previousError ∧
    s'.controller.target = busy.controller.target ∧ s'.period = busy.period ∧
    s'.dutyCap = busy.dutyCap ∧ s' ≠ busy := by decide
theorem witness_SampleAfterTuneObeysTheNewLimits : busy.cfg.hasTune = true ∧ sampleMayStart busy = true := by
  decide

theorem busy_inv : Inv busy :=
  { cfg_wf := by decide
    controller := busyController_inv
    display :=
      { mask_a := by decide
        mask_b := by decide
        last_mask := by decide
        next_mask := fun _ h => nomatch h
        bus_in_gap := fun _ h => nomatch h
        bus_between := fun _ => by decide }
    sequencing :=
      { hold_in_fade := fun _ h => nomatch h
        micro_in_poll := fun h => absurd rfl h
        feedback_read := fun _ h => nomatch h
        boot_quiet := fun h => absurd rfl h
        pending_has_pair := fun h => nomatch h
        watchdog_fed := by decide }
    status_low := by decide
    compare_is_duty := by decide }

/-- The same with no target, and the integral at its reset value. -/
def untargeted : State :=
  { busy with controller := { busyController with target := 0, integral := 0 } }

theorem witness_ConverterStaysOffWithoutTarget :
    Inv untargeted ∧ sampleMayStart untargeted = true ∧ untargeted.cfg.dMode = .none ∧
    untargeted.controller.target = 0 ∧ untargeted.cfg.iMin ≤ 0 ∧ untargeted.controller.integral.toInt ≤ 0 :=
  ⟨{ busy_inv with
      controller := { busyController_inv with target_le := by decide, integral_window := .inl rfl }
      display := { busy_inv.display with }
      sequencing := { busy_inv.sequencing with } },
    by decide, by decide, by decide, by decide, by decide⟩

/-- Two conversions in one period break the premise, whichever way they are given; with the period's end
between them they keep it. -/
theorem test_premise_of_one_conversion_per_period :
    environmentPremises Config.reference true [.conversion 1 2, .tick, .conversion 1 2] = false ∧
    environmentPremises Config.reference true [.conversion 1 2, .event 0x0175006400] = false ∧
    environmentPremises Config.reference false [.conversion 1 2] = false ∧
    environmentPremises Config.reference true [.conversion 1 2, .periodBoundary, .event 0x0175006400] = true := by
  decide
/-- Set pending; lost while pending; lost while a SAMPLE runs; lost before boot ends. Then a run of two periods
with a conversion each, in which two SAMPLEs end: the most that the second clause allows. -/
theorem witness_ConversionSetsPendingOrIsLost :
    busy.cfg.wf = true ∧ triggerRecognised busy = true ∧ triggerRecognised pending = false ∧
    triggerRecognised (takeInterrupt 1 2 busy) = false ∧ triggerRecognised State.reset = false ∧
    (let s := setInbox [.event 0x0175006400, .periodBoundary, .event 0x0175006400] busy
     s.samplePending = false ∧ s.control = .idle ∧ environmentPremises s.cfg true s.inbox = true ∧
     after (core.run 3 s) (fun t => (t.inbox, t.outputs.count .wdtPet)) =
       some ([], s.outputs.count .wdtPet + 2)) := by decide
theorem witness_PendingInterruptIsTakenFirst :
    pending.cfg.wf = true ∧ pending.boot = .running ∧ pending.control = .idle ∧
    pending.samplePending = true ∧ pending.results ≠ [] ∧ pending.inbox = [.event 1] ∧
    takenAtOnce pending.cfg (.event 1) = false := by decide
theorem witness_InterruptedPollingResumes :
    pending.cfg.wf = true ∧ pending.boot = .running ∧ pending.control = .idle ∧
    pending.samplePending = true ∧ pending.results ≠ [] ∧ pending.inbox = [.event 1] ∧
    takenAtOnce pending.cfg (.event 1) = false := by decide
/-- A SAMPLE runs, before a POLL and before a RESET: the step answers a next state in both. -/
theorem witness_NothingPollsDuringASample :
    (takeInterrupt 100 373 busy).control ≠ .idle ∧
    after (step (setInbox [.event 1] (takeInterrupt 100 373 busy))) (·.control) = some .dutyWritten ∧
    after (step (setInbox [.event 3] (takeInterrupt 100 373 busy))) (·.control) = some .idle := by decide
theorem witness_ResetWinsOverEverything : (takeInterrupt 100 373 busy).cfg.wf = true := by decide
/-- The last unit before the timeout, and a whole timeout from a fresh pet. -/
theorem witness_WatchdogResetsAfterTimeout :
    busy.cfg.wf = true ∧ watchdogArmed busy = true ∧ busy.sincePet + 1 = busy.cfg.wdtTimeout ∧
    watchdogArmed ready = true ∧ ready.sincePet + 16 = ready.cfg.wdtTimeout := by decide
/-- A SAMPLE that is taken pets once, one before boot ends not at all. -/
theorem witness_OnlySamplePetsTheWatchdog :
    after (exec (.sample 1 2) busy) (·.outputs.count .wdtPet) = some (busy.outputs.count .wdtPet + 1) ∧
    after (exec (.sample 1 2) State.reset) (·.outputs.count .wdtPet) =
      some (State.reset.outputs.count .wdtPet) := by decide
/-- The three ways down: the end of a SAMPLE, the arming in boot, a RESET. -/
theorem witness_PollingNeverFeedsTheWatchdog :
    after (step { busy with control := .dutyWritten }) (·.sincePet) = some 0 ∧
    after (step { busy with boot := .platformReady }) (·.sincePet) = some 0 ∧
    after (step (setInbox [.tick] busy)) (·.sincePet) = some 0 ∧ 0 < busy.sincePet := by decide
theorem witness_DutyGovernsTheNextPeriod : busy.cfg.wf = true ∧ sampleMayStart busy = true := by decide
theorem witness_BootStartsSamplingOnce :
    State.reset.cfg.wf = true ∧ State.reset.boot = .registersReset ∧ State.reset.control = .idle ∧
    State.reset.inbox = [] := by decide
/-- A RESET while a SAMPLE runs, and an idle POLL with nothing else to do. -/
theorem witness_StepRunsTheDecodedEvent :
    busy.cfg.wf = true ∧ decode busy.cfg (.event 3) = .ok .reset ∧
    decode busy.cfg (.event 1) = .ok (.poll false 0) ∧ busy.boot = .running ∧ busy.control = .idle ∧
    busy.samplePending = false := by decide
theorem witness_StepRunsTheDecodedCommand :
    let s := setInbox [.pollApply true 0x00960001] ready
    s.cfg.wf = true ∧ s.inbox = [.pollApply true 0x00960001] ∧
    decode s.cfg (.command 0x00960001) = .ok (.settarget 150) ∧ pollTurn s = true ∧
    s.samplePending = false := by decide
/-- A state with every register set, and a step from it: a FADE. -/
theorem witness_StepKeepsTheInvariant :
    Inv busy ∧ after (step (setInbox [.event 2] busy)) (·.mainPhase) = some .poll :=
  ⟨busy_inv, by decide⟩
theorem witness_StepKeepsTheTransitionGuard :
    GuardInv busy ∧ after (step (setInbox [.fadeBegin 0xE1] busy)) (·.polling) = some (.holding 2) :=
  ⟨⟨by decide, by decide, fun _ h => nomatch h⟩, by decide⟩
theorem witness_ResetMeetsInvariantAndGuard : otherConfig.wf = true := by decide
theorem witness_OperationsKeepToTheirOwnRegisters :
    after (exec (.sample 1 2) busy) (·.control) = some .idle ∧
    after (exec (.fade 0xE1) busy) (·.outMask) = some 2 := by decide
theorem witness_StepKeepsConfigurationAndHistory :
    after (step (setInbox [.event 2] busy)) (fun t => (t.cfg, t.outputs.length)) =
      some (busy.cfg, busy.outputs.length) := by decide
/-- One configuration for each clause of R7. -/
theorem witness_BrokenConfigurationsAreRefused :
    (let c := { Config.reference with iMin := 401 }; c.iMax < c.iMin) ∧
    31 < { Config.reference with mdC := 32 }.mdC ∧
    31 < { Config.reference with tsShift := 32, tsBits := 40 }.tsShift ∧ 6 < { Config.reference with k := 7 }.k ∧
    (Config.reference.digitMasks.drop 1).length ≠ 12 ∧ ¬ (Config.reference.digitMasks.set 11 1).Nodup ∧
    (∀ n < 16, (3 : Half) ≠ 1#16 <<< n) ∧ { Config.reference with pShift := 15 }.noWrap = false := by decide

end Sys2Proof.Tests
end

section
/-! What an accepted configuration rules out (spec/00_scope.md R7), and that every other one is refused. -/

namespace Sys2Proof.Machine

open Sys2Proof

/-- The shift parameters of an accepted configuration are in 0..31 (R7, R11). -/
theorem wf_shifts {c : Config} (h : c.wf = true) :
    c.pShift ≤ 31 ∧ c.iShift ≤ 31 ∧ c.dShift ≤ 31 ∧ c.mdA ≤ 31 ∧ c.mdB ≤ 31 ∧ c.mdC ≤ 31 ∧
      c.ctS1 ≤ 31 ∧ c.ctS2 ≤ 31 ∧ c.tsShift ≤ 31 ∧ ∀ n, c.ctS3 = some n → n ≤ 31 := by
  simp only [Config.wf, Config.shiftsWf, Bool.and_eq_true, decide_eq_true_eq, Option.all_eq_true] at h
  tauto

theorem wf_noWrap {c : Config} (h : c.wf = true) : c.noWrap = true := by
  simp only [Config.wf, Bool.and_eq_true] at h
  exact h.2

theorem step_of_not_wf {s : State} (h : ¬ s.cfg.wf = true) : step s = .refused .badConfiguration :=
  if_neg h

/-- Settles O60: an accepted configuration contradicts each clause of R7 that the statement breaks. -/
theorem brokenConfigurationsAreRefused : Obligations.BrokenConfigurationsAreRefused := by
  intro s hbroken
  refine step_of_not_wf fun hw => ?_
  obtain ⟨hint, hk, hrot, -⟩ := wf_bounds hw
  obtain ⟨hp, hi, hd, ha, hb, hc, h1, h2, hts, h3⟩ := wf_shifts hw
  obtain ⟨hlen, hhot, hnodup⟩ := wf_masks hw
  rcases hbroken with hbad | hbad | hbad | hbad | hbad
  · omega
  · rcases hbad with _ | _ | _ | _ | _ | _ | _ | _ | _ | _ | ⟨n, hn, hlt⟩
    case inr.inr.inr.inr.inr.inr.inr.inr.inr.inr => exact absurd (h3 n hn) (by omega)
    all_goals omega
  · omega
  · rcases hbad with hne | hdup | ⟨m, hm, hcold⟩
    · exact hne hlen
    · exact hdup hnodup
    · obtain ⟨n, hn, hmn⟩ := (oneHot_iff m).mp (hhot m hm)
      exact hcold n hn hmn
  · rw [wf_noWrap hw] at hbad
    cases hbad

end Sys2Proof.Machine
end

section
/-! What stands in the state but is no register: every operation keeps the configuration (spec/00_scope.md R6)
and only adds to the output events (R13). -/

namespace Sys2Proof.Machine

open Sys2Proof

/-- `t` has the configuration of `s`, and the output events of `s` followed by any others. -/
def ExtendsHistory (s t : State) : Prop := t.cfg = s.cfg ∧ s.outputs <+: t.outputs

theorem ExtendsHistory.refl (s : State) : ExtendsHistory s s := ⟨rfl, [], List.append_nil _⟩

theorem ExtendsHistory.trans {s t u : State} (hst : ExtendsHistory s t) (htu : ExtendsHistory t u) :
    ExtendsHistory s u :=
  ⟨htu.1.trans hst.1, hst.2.trans htu.2⟩

theorem extendsHistory_of_append {s t : State} {new : List Output} (hc : t.cfg = s.cfg)
    (ho : t.outputs = s.outputs ++ new) : ExtendsHistory s t :=
  ⟨hc, new, ho.symm⟩

theorem extendsHistory_of_same {s t : State} (hc : t.cfg = s.cfg) (ho : t.outputs = s.outputs) :
    ExtendsHistory s t :=
  extendsHistory_of_append (new := []) hc (by simp [ho])

/-! ## The operations -/

theorem command_extendsHistory {i : Instr} {s t : State} (hi : i.isCommand = true)
    (h : exec i s = .next t) : ExtendsHistory s t := by
  obtain ⟨u, hu, hframe⟩ := exec_command i hi s
  obtain rfl : u = t := by simpa [hu] using h
  rw [hframe]
  exact extendsHistory_of_same rfl rfl

theorem applyFresh_extendsHistory {fresh : Bool} {w : Word} {s t : State}
    (h : applyFresh fresh w s = .next t) : ExtendsHistory s t := by
  obtain ⟨-, hx⟩ | ⟨-, rfl⟩ := applyFresh_next h
  · exact command_extendsHistory (decodeCommand_isCommand _ _) hx
  · exact .refl _

theorem runControlLaw_extendsHistory (fb ref : Sample) (s : State) :
    ExtendsHistory s (runControlLaw fb ref s) :=
  extendsHistory_of_append rfl rfl

theorem returnFromInterrupt_extendsHistory (s : State) : ExtendsHistory s (returnFromInterrupt s) :=
  extendsHistory_of_append rfl rfl

theorem publishStatus_extendsHistory (fb : Word) (s : State) : ExtendsHistory s (publishStatus fb s) :=
  extendsHistory_of_append rfl rfl

theorem startGap_extendsHistory (m : Half) (s : State) : ExtendsHistory s (startGap m s) :=
  extendsHistory_of_append rfl rfl

theorem endGap_extendsHistory (m : Half) (s : State) : ExtendsHistory s (endGap m s) :=
  extendsHistory_of_append rfl rfl

theorem resetOperation_extendsHistory (s : State) : ExtendsHistory s (resetOperation s) :=
  extendsHistory_of_append rfl rfl

theorem bootStep_extendsHistory (s : State) : ExtendsHistory s (bootStep s) := by
  obtain ⟨-, h⟩ | ⟨-, h⟩ | ⟨-, h⟩ | ⟨-, h⟩ | ⟨-, h⟩ := bootStep_cases s <;> rw [h]
  case inr.inr.inl => exact extendsHistory_of_append rfl rfl
  all_goals exact extendsHistory_of_same rfl rfl

theorem exec_extendsHistory {i : Instr} {s t : State} (h : exec i s = .next t) : ExtendsHistory s t := by
  cases i
  case sample fb ref =>
    obtain ⟨-, rfl⟩ | ⟨-, rfl⟩ := execSample_next h
    · exact (runControlLaw_extendsHistory fb ref (takeInterrupt fb ref s)).trans
        (returnFromInterrupt_extendsHistory _)
    · exact extendsHistory_of_same rfl rfl
  case poll fresh w =>
    obtain ⟨-, u, hu, rfl⟩ := execPoll_next h
    exact (applyFresh_extendsHistory hu).trans (publishStatus_extendsHistory _ (readFeedback u))
  case fade ts =>
    obtain ⟨-, ⟨-, rfl⟩ | ⟨-, rfl⟩⟩ := execFade_next h
    · exact extendsHistory_of_same rfl rfl
    · exact (startGap_extendsHistory _ s).trans (endGap_extendsHistory _ _)
  case reset =>
    cases h
    exact resetOperation_extendsHistory s
  all_goals exact command_extendsHistory rfl h

/-! ## The core's own work and the inputs -/

theorem ownWork_extendsHistory {s t : State} (h : ownWork s = some t) : ExtendsHistory s t := by
  obtain ⟨fb, ref, -, rfl⟩ | ⟨-, rfl⟩ | ⟨-, -, rfl⟩ | ⟨-, -, -, rfl⟩ := ownWork_some h
  · exact runControlLaw_extendsHistory fb ref s
  · exact returnFromInterrupt_extendsHistory s
  · exact bootStep_extendsHistory s
  · exact extendsHistory_of_same rfl rfl

theorem conversionCompletes_extendsHistory (fb ref : Sample) (s : State) :
    ExtendsHistory s (conversionCompletes fb ref s) := by
  obtain ⟨-, h⟩ | ⟨-, h⟩ := conversionCompletes_cases fb ref s <;> rw [h] <;>
    exact extendsHistory_of_same rfl rfl

theorem clockTick_extendsHistory (s : State) : ExtendsHistory s (clockTick s) := by
  obtain ⟨-, h⟩ | ⟨-, -, h⟩ | ⟨-, -, h⟩ := clockTick_cases s <;> rw [h]
  · exact .refl s
  · exact resetOperation_extendsHistory s
  · exact extendsHistory_of_same rfl rfl

theorem runInput_extendsHistory {inp : Input} {s t : State} (h : runInput inp s = .next t) :
    ExtendsHistory s t := by
  obtain ⟨w, i, -, -, h⟩ | ⟨fresh, w, -, h⟩ | ⟨w, -, h⟩ | ⟨-, h⟩ | ⟨-, h⟩ | ⟨-, h⟩ | ⟨ts, -, h⟩ |
    ⟨-, h⟩ | ⟨fb, ref, -, rfl⟩ | ⟨-, rfl⟩ | ⟨-, rfl⟩ | ⟨-, rfl⟩ := runInput_next h
  · exact exec_extendsHistory h
  · obtain ⟨-, u, hu, rfl⟩ := microApply_next h
    exact (applyFresh_extendsHistory hu).trans (extendsHistory_of_same rfl rfl)
  · obtain ⟨-, per, maxd, -, rfl⟩ := microApplyPeriod_next h
    exact extendsHistory_of_same rfl rfl
  · obtain ⟨maxd, -, rfl⟩ := microApplyCap_next h
    exact extendsHistory_of_same rfl rfl
  · obtain ⟨-, rfl⟩ := microRdfb_next h
    exact extendsHistory_of_same rfl rfl
  · obtain ⟨fb, -, rfl⟩ := microRdref_next h
    exact publishStatus_extendsHistory fb s
  · obtain ⟨-, -, ⟨-, rfl⟩ | ⟨-, rfl⟩⟩ := microFadeBegin_next h
    · exact extendsHistory_of_same rfl rfl
    · exact startGap_extendsHistory _ s
  · obtain ⟨m, -, rfl⟩ := microFadeEnd_next h
    exact endGap_extendsHistory m s
  · exact conversionCompletes_extendsHistory fb ref s
  · exact extendsHistory_of_same rfl rfl
  · exact clockTick_extendsHistory s
  · cases hwork : ownWork s with
    | none => exact .refl s
    | some u => exact ownWork_extendsHistory hwork

theorem step_extendsHistory {s t : State} (h : step s = .next t) : ExtendsHistory s t := by
  obtain ⟨-, ⟨-, -, rfl⟩ | hwork | ⟨inp, rest, -, -, hrun⟩⟩ := step_next h
  · exact .refl t
  · exact ownWork_extendsHistory hwork
  · exact ExtendsHistory.trans (t := setInbox rest s) (extendsHistory_of_same rfl rfl)
      (runInput_extendsHistory hrun)

/-- Settles O59: what a step does is waiting, the core's own work or one input, and each extends the history. -/
theorem stepKeepsConfigurationAndHistory : Obligations.StepKeepsConfigurationAndHistory := by
  intro s t h
  obtain ⟨hcfg, new, hout⟩ := step_extendsHistory h
  exact ⟨hcfg, new, hout.symm⟩

end Sys2Proof.Machine
end

section
/-! The functions of a SAMPLE over the integers under the no-wrap condition W (spec/00_scope.md R8), and the control
cycle assembled from them. -/

namespace Sys2Proof.Machine

open Sys2Proof

/-! ## Registers in their ranges -/

theorem word_zero_toInt : (0 : Word).toInt = 0 := rfl

/-- A filtered value's post-shift is a 10-bit number (R15). -/
theorem filter_postShift_range {c : Config} {f : Word} (h : inFilterRange c f) :
    0 ≤ f.toInt / 2 ^ c.k ∧ f.toInt / 2 ^ c.k ≤ 1023 := by
  have hP : (0 : Int) < 2 ^ c.k := by positivity
  obtain ⟨hlo, hhi⟩ := h
  rw [Config.fMax] at hhi
  push_cast at hhi
  exact ⟨Int.ediv_nonneg hlo hP.le, Int.ediv_le_of_le_mul hP hhi⟩

theorem fMax_lt {c : Config} (hk : c.k ≤ 6) : c.fMax < 65536 := by
  have hpow : 2 ^ c.k ≤ 2 ^ 6 := Nat.pow_le_pow_right (by omega) hk
  rw [Config.fMax]
  omega

/-- R104 (a) at the largest sample: the filter keeps its range. -/
theorem iir_inFilterRange {c : Config} {f : Word} (hk : c.k ≤ 6) (h : inFilterRange c f) (r : Sample) :
    inFilterRange c (iir c f r) := by
  have hP : (1 : Int) ≤ 2 ^ c.k := one_le_pow₀ (by norm_num)
  have hr := r.isLt
  obtain ⟨hlo, hhi⟩ := h
  have hlow := sub_ediv_mono hP hlo
  have htop := sub_ediv_mono hP hhi
  have hfull : (c.fMax : Int) / 2 ^ c.k = 1023 := by
    rw [Config.fMax]
    push_cast
    exact Int.mul_ediv_cancel _ (by omega)
  rw [inFilterRange, iir_toInt c f r hk]
  rw [hfull] at htop
  simp only [Int.zero_ediv] at hlow
  omega

/-! ## The multiply and the compensated target -/

theorem zext32_eq_double_half (s : Half) :
    zext32 s = zext32 (s >>> 1) * 2 + if s.getLsbD 0 then 1 else 0 := by
  apply BitVec.eq_of_toNat_eq
  have hs := s.isLt
  have hz := zext32_toNat (by omega) s
  have hz' := zext32_toNat (by omega) (s >>> 1)
  simp only [BitVec.toNat_ushiftRight, Nat.shiftRight_eq_div_pow] at hz'
  have hbit : s.getLsbD 0 = decide (s.toNat % 2 = 1) := by simp [BitVec.getLsbD]
  rw [BitVec.toNat_add, BitVec.toNat_mul, hz, hz', hbit]
  by_cases hodd : s.toNat % 2 = 1 <;> simp [hodd] <;> omega

/-- The loop invariant of `SWMUL` (R146): what is left of `s` times `l`, plus what is accumulated. -/
theorem swmulLoop_fst (fuel : Nat) (s : Half) (l acc : Word) (n : Nat) (hs : s.toNat < 2 ^ fuel) :
    (swmulLoop fuel s l acc n).1 = acc + zext32 s * l := by
  induction fuel generalizing s l acc n with
  | zero =>
    obtain rfl : s = 0 := BitVec.eq_of_toNat_eq (by simpa using hs)
    simp [swmulLoop, zext32]
  | succ fuel ih =>
    rw [swmulLoop]
    split
    · next hz => simp [hz, zext32]
    · have hhalf : (s >>> 1).toNat < 2 ^ fuel := by
        rw [BitVec.toNat_ushiftRight, Nat.shiftRight_eq_div_pow]
        omega
      have hdouble : l <<< 1 = l * 2 := by
        apply BitVec.eq_of_toNat_eq
        simp [Nat.shiftLeft_eq]
      rw [ih _ _ _ _ hhalf, hdouble, zext32_eq_double_half s]
      split_ifs <;> ring

theorem swmul_eq_mul (x y : Half) : swmul x y = zext32 x * zext32 y := by
  rw [swmul, swmulRun]
  split_ifs
  · rw [swmulLoop_fst _ _ _ _ _ x.isLt]
    ring
  · rw [swmulLoop_fst _ _ _ _ _ y.isLt]
    ring

/-- The software multiply is exact (R146). -/
theorem swmul_toNat (x y : Half) : (swmul x y).toNat = x.toNat * y.toNat := by
  have hlt : x.toNat * y.toNat < 2 ^ 16 * 2 ^ 16 := Nat.mul_lt_mul'' x.isLt y.isLt
  rw [swmul_eq_mul, BitVec.toNat_mul, zext32_toNat (by omega), zext32_toNat (by omega)]
  exact Nat.mod_eq_of_lt (by omega)

theorem compTargetNat_mono (c : Config) {m n : Nat} (h : m ≤ n) : compTargetNat c m ≤ compTargetNat c n := by
  unfold compTargetNat
  cases c.ctS3 with
  | none => simp only; gcongr
  | some s3 => simp only; gcongr

/-- `CTMAX` is the compensated target at the multiply bound (R8). -/
theorem ctMax_eq (c : Config) : c.ctMax = compTargetNat c c.nMax := by
  unfold Config.ctMax compTargetNat
  cases c.ctS3 <;> rfl

/-- `CompTarget` does not wrap where its shift sum fits a word (R148). -/
theorem compTarget_toNat {c : Config} {fr : Word} {target : Half} {num : Nat}
    (hnum : (swmul (fr.extractLsb' 0 16) target).toNat = num) (h : compTargetNat c num < 2 ^ 32) :
    (compTarget c fr target).toNat = compTargetNat c num := by
  unfold compTargetNat at h
  unfold compTarget compTargetNat
  cases hs : c.ctS3 with
  | none =>
    simp only [hs, BitVec.toNat_add, shr_toNat, hnum, Nat.mod_add_mod] at h ⊢
    exact Nat.mod_eq_of_lt h
  | some n =>
    simp only [hs, BitVec.toNat_add, shr_toNat, hnum, Nat.mod_add_mod] at h ⊢
    exact Nat.mod_eq_of_lt h

/-- R148 under condition W: the compensated target is the exact product's shift sum, at most `CTMAX`. -/
theorem compTarget_exact {c : Config} {fr : Word} {target : Half} (hw : c.wf = true)
    (hfr : inFilterRange c fr) (ht : target.toNat ≤ c.maxTarget.toNat) :
    (compTarget c fr target).toInt = compTargetNat c (fr.toNat * target.toNat) ∧
      compTargetNat c (fr.toNat * target.toNat) ≤ c.ctMax := by
  obtain ⟨-, hk, -, -, -, hct, -⟩ := wf_bounds hw
  have hfmax := fMax_lt hk
  have hfrlt : fr.toNat < 65536 := by
    have := toNat_of_nonneg hfr.1
    have := hfr.2
    omega
  have hlow : (fr.extractLsb' 0 16).toNat = fr.toNat := by
    rw [BitVec.extractLsb'_toNat, Nat.shiftRight_zero, Nat.mod_eq_of_lt hfrlt]
  have hbound : compTargetNat c (fr.toNat * target.toNat) ≤ c.ctMax := by
    rw [ctMax_eq, Config.nMax]
    exact compTargetNat_mono c (Nat.mul_le_mul (by omega) ht)
  have hprod : (swmul (fr.extractLsb' 0 16) target).toNat = fr.toNat * target.toNat := by
    rw [swmul_toNat, hlow]
  have hnat := compTarget_toNat (c := c) hprod (by omega)
  refine ⟨?_, hbound⟩
  rw [BitVec.toInt_eq_toNat_of_lt (by omega), hnat]

/-! ## The duty limit -/

/-- R142 on a filtered reference in range: the shift sum does not wrap before its clamp. -/
theorem maxDutyOf_toInt {c : Config} {fr : Word} (period : Half) (dutyCap : Byte)
    (hfr : inFilterRange c fr) :
    (maxDutyOf c fr period dutyCap).toInt =
      clampInt (maxDutyInt c (fr.toInt / 2 ^ c.k)) 0 (min period.toNat dutyCap.toNat) := by
  obtain ⟨hlo, hhi⟩ := filter_postShift_range hfr
  have hshift : ∀ n, (sar (postShift c fr) n).toInt = fr.toInt / 2 ^ c.k / 2 ^ n := fun n => by
    rw [sar_toInt, postShift, sar_toInt]
  have hrange : ∀ n, 0 ≤ fr.toInt / 2 ^ c.k / 2 ^ n ∧ fr.toInt / 2 ^ c.k / 2 ^ n ≤ 1023 := fun n =>
    ⟨Int.ediv_nonneg hlo (by positivity), (Int.ediv_le_self _ hlo).trans hhi⟩
  have ha := hrange c.mdA
  have hb := hrange c.mdB
  have hc := hrange c.mdC
  have hab : (sar (postShift c fr) c.mdA - sar (postShift c fr) c.mdB).toInt =
      fr.toInt / 2 ^ c.k / 2 ^ c.mdA - fr.toInt / 2 ^ c.k / 2 ^ c.mdB := by
    rw [sub_toInt _ _ (by rw [hshift, hshift]; omega) (by rw [hshift, hshift]; omega), hshift, hshift]
  rw [maxDutyOf, clamp_toInt, dutyLimit_toInt, maxDutyRaw, maxDutyInt,
    sub_toInt _ _ (by rw [hab, hshift]; omega) (by rw [hab, hshift]; omega), hab, hshift, word_zero_toInt, Nat.cast_min]

/-- The duty limit is never above `duty_cap`, a byte (R32, R142). -/
theorem maxDutyOf_range (c : Config) (fr : Word) (period : Half) (dutyCap : Byte) :
    0 ≤ (maxDutyOf c fr period dutyCap).toInt ∧ (maxDutyOf c fr period dutyCap).toInt ≤ 255 := by
  have hcap := dutyCap.isLt
  have hlimit := dutyLimit_toInt period dutyCap
  have h := clampInt_bounds (x := (maxDutyRaw c (postShift c fr)).toInt) (lo := 0)
    (hi := (dutyLimit period dutyCap).toInt) (by omega)
  rw [maxDutyOf, clamp_toInt, word_zero_toInt]
  omega

/-! ## The PID law -/

/-- The value is at most `B` in magnitude, as W bounds the terms of the law by EMAX, IMAX and DMAX (R8). -/
abbrev Within (B : Nat) (x : Int) : Prop := -(B : Int) ≤ x ∧ x ≤ B

theorem within_zero (B : Nat) : Within B 0 := by omega

theorem within_mul_two_pow {x : Int} {B : Nat} (h : Within B x) (n : Nat) :
    Within (B * 2 ^ n) (x * 2 ^ n) := by
  have hP : (0 : Int) ≤ 2 ^ n := by positivity
  have hlo := mul_le_mul_of_nonneg_right h.1 hP
  have hhi := mul_le_mul_of_nonneg_right h.2 hP
  push_cast [Within]
  constructor <;> linarith

theorem within_ediv_two_pow {x : Int} {B : Nat} (h : Within B x) (n : Nat) : Within B (x / 2 ^ n) := by
  have hP : (1 : Int) ≤ 2 ^ n := one_le_pow₀ (by norm_num)
  have hB : (B : Int) ≤ B * 2 ^ n := le_mul_of_one_le_right (by omega) hP
  exact ⟨Int.le_ediv_of_mul_le (by omega) (by linarith [h.1]),
    Int.ediv_le_of_le_mul (by omega) (h.2.trans hB)⟩

/-- `I_MIN` and `I_MAX` after scaling lie within `IMAX` (R8). -/
theorem scaledBound_within {c : Config} {bound : Int}
    (h : bound.natAbs ≤ max c.iMin.natAbs c.iMax.natAbs) : Within c.iBound (bound * 2 ^ c.k) :=
  within_mul_two_pow (B := max c.iMin.natAbs c.iMax.natAbs) (by omega) c.k

/-- `I_MIN` and `I_MAX` are scaled without wrapping (R107). -/
theorem integralBound_toInt {c : Config} {bound : Int} (hw : c.wf = true)
    (h : bound.natAbs ≤ max c.iMin.natAbs c.iMax.natAbs) :
    (integralBound c bound).toInt = bound * 2 ^ c.k := by
  obtain ⟨-, -, -, -, -, -, -, hi, -⟩ := wf_bounds hw
  have hscaled := scaledBound_within h
  have hunscaled : max c.iMin.natAbs c.iMax.natAbs ≤ c.iBound :=
    Nat.le_mul_of_pos_right _ (by positivity)
  have hofInt : (BitVec.ofInt 32 bound).toInt = bound := by
    rw [BitVec.toInt_ofInt, bmod_of_range _ (by omega) (by omega)]
  rw [integralBound, shl_toInt _ _ (by rw [hofInt]; omega) (by rw [hofInt]; omega), hofInt]

/-- The integral, in its window or at its reset value, lies within `IMAX` (R8, R26). -/
theorem integral_within {c : Config} {x : Word} (h : x = 0 ∨ inIntegralWindow c x) :
    Within c.iBound x.toInt := by
  obtain rfl | ⟨hlo, hhi⟩ := h
  · exact within_zero _
  · have hmin := scaledBound_within (c := c) (bound := c.iMin) (by omega)
    have hmax := scaledBound_within (c := c) (bound := c.iMax) (by omega)
    omega

/-- R107 under condition W: the anti-windup clamp acts on the exact sum. -/
theorem nextIntegral_toInt {c : Config} {integral error : Word} (hw : c.wf = true)
    (hi : integral = 0 ∨ inIntegralWindow c integral) (he : Within c.eMax error.toInt) :
    (nextIntegral c integral error).toInt =
      clampInt (integral.toInt + error.toInt) (c.iMin * 2 ^ c.k) (c.iMax * 2 ^ c.k) := by
  obtain ⟨-, -, -, -, -, -, -, hsum, -⟩ := wf_bounds hw
  have hrange := integral_within hi
  rw [nextIntegral, clamp_toInt, integralBound_toInt hw (by omega), integralBound_toInt hw (by omega),
    add_toInt _ _ (by omega) (by omega)]

theorem nextIntegral_inIntegralWindow {c : Config} {integral error : Word} (hw : c.wf = true)
    (hi : integral = 0 ∨ inIntegralWindow c integral) (he : Within c.eMax error.toInt) :
    inIntegralWindow c (nextIntegral c integral error) := by
  have hle : c.iMin * 2 ^ c.k ≤ c.iMax * 2 ^ c.k :=
    mul_le_mul_of_nonneg_right (wf_bounds hw).1 (by positivity)
  rw [inIntegralWindow, nextIntegral_toInt hw hi he]
  exact clampInt_bounds hle

/-- The derivative's shift over the integers (R108). -/
def derivativeShiftInt (c : Config) (d : Int) : Int :=
  match c.dDir with
  | .shl => d * 2 ^ c.dShift
  | .shr => d / 2 ^ c.dShift

theorem dTermInt_add {c : Config} (h : c.dMode = .add) (e p : Int) :
    dTermInt c e p = derivativeShiftInt c (e - p) := by
  unfold dTermInt derivativeShiftInt
  cases c.dDir <;> rw [h]

theorem dTermInt_sub {c : Config} (h : c.dMode = .sub) (e p : Int) :
    dTermInt c e p = derivativeShiftInt c (p - e) := by
  unfold dTermInt derivativeShiftInt
  cases c.dDir <;> rw [h]

/-- `DMAX` where there is a derivative (R8). -/
theorem dMax_eq {c : Config} (h : c.dMode ≠ .none) :
    c.dMax = match c.dDir with
      | .shl => 2 * c.eMax * 2 ^ c.dShift
      | .shr => 2 * c.eMax := by
  unfold Config.dMax
  cases hm : c.dMode with
  | none => exact absurd hm h
  | add => cases c.dDir <;> rfl
  | sub => cases c.dDir <;> rfl

/-- R8: where there is a derivative, W leaves room for the difference of two errors, and for its shift. -/
theorem derivativeShift_sub_exact {c : Config} {x y : Word} (hw : c.wf = true) (hmode : c.dMode ≠ .none)
    (hx : Within c.eMax x.toInt) (hy : Within c.eMax y.toInt) :
    (derivativeShift c (x - y)).toInt = derivativeShiftInt c (x.toInt - y.toInt) ∧
      Within c.dMax (derivativeShiftInt c (x.toInt - y.toInt)) := by
  obtain ⟨-, -, -, -, -, -, -, -, hsum⟩ := wf_bounds hw
  have hdiff : Within (2 * c.eMax) (x.toInt - y.toInt) := by omega
  have hmax := dMax_eq hmode
  unfold derivativeShift derivativeShiftInt
  cases hdir : c.dDir with
  | shl =>
    simp only [hdir] at hmax ⊢
    have hroom : 2 * c.eMax ≤ c.dMax := hmax ▸ Nat.le_mul_of_pos_right _ (by positivity)
    have hsub : (x - y).toInt = x.toInt - y.toInt := sub_toInt _ _ (by omega) (by omega)
    have hshift := within_mul_two_pow hdiff c.dShift
    rw [← hmax] at hshift
    refine ⟨?_, hshift⟩
    rw [shl_toInt _ _ (by rw [hsub]; omega) (by rw [hsub]; omega), hsub]
  | shr =>
    simp only [hdir] at hmax ⊢
    have hsub : (x - y).toInt = x.toInt - y.toInt := sub_toInt _ _ (by omega) (by omega)
    rw [sar_toInt, hsub, hmax]
    exact ⟨rfl, within_ediv_two_pow hdiff c.dShift⟩

/-- R108 under condition W: the derivative term is exact and within `DMAX`. -/
theorem dTerm_exact {c : Config} {e p : Word} (hw : c.wf = true) (he : Within c.eMax e.toInt)
    (hp : Within c.eMax p.toInt) :
    (dTerm c e p).toInt = dTermInt c e.toInt p.toInt ∧ Within c.dMax (dTermInt c e.toInt p.toInt) := by
  cases hmode : c.dMode with
  | none =>
    simp only [dTerm, dTermInt, hmode]
    exact ⟨rfl, within_zero _⟩
  | add =>
    simp only [dTerm, hmode, dTermInt_add hmode]
    exact derivativeShift_sub_exact hw (by simp [hmode]) he hp
  | sub =>
    simp only [dTerm, hmode, dTermInt_sub hmode]
    exact derivativeShift_sub_exact hw (by simp [hmode]) hp he

/-- R109 under condition W: neither partial sum of the plant output wraps. -/
theorem plantOutput_toInt {c : Config} {error integral dterm : Word} (hw : c.wf = true)
    (he : Within c.eMax error.toInt) (hi : Within c.iBound integral.toInt)
    (hd : Within c.dMax dterm.toInt) :
    (plantOutput c error integral dterm).toInt =
      error.toInt * 2 ^ c.pShift + integral.toInt / 2 ^ c.iShift + dterm.toInt := by
  obtain ⟨-, -, -, -, -, -, -, -, hsum⟩ := wf_bounds hw
  have hp := within_mul_two_pow he c.pShift
  have hq := within_ediv_two_pow hi c.iShift
  have hshl : (shl error c.pShift).toInt = error.toInt * 2 ^ c.pShift :=
    shl_toInt _ _ (by omega) (by omega)
  have hsar := sar_toInt integral c.iShift
  have hpi : (shl error c.pShift + sar integral c.iShift).toInt =
      error.toInt * 2 ^ c.pShift + integral.toInt / 2 ^ c.iShift := by
    rw [add_toInt _ _ (by omega) (by omega), hshl, hsar]
  rw [plantOutput, add_toInt _ _ (by omega) (by omega), hpi]

/-- The error of a compensated target and a feedback in their ranges (R30, R106). -/
theorem error_toInt {c : Config} {ct ff : Word} (hw : c.wf = true)
    (hct : 0 ≤ ct.toInt ∧ ct.toInt ≤ c.ctMax) (hff : inFilterRange c ff) :
    (ct - ff).toInt = ct.toInt - ff.toInt := by
  obtain ⟨-, hk, -, -, -, hctmax, -⟩ := wf_bounds hw
  have hfmax := fMax_lt hk
  obtain ⟨hlo, hhi⟩ := hff
  exact sub_toInt _ _ (by omega) (by omega)

/-- R8, R30: the range of an error is within `EMAX`. -/
theorem error_within {c : Config} {x : Int} (h : -(c.fMax : Int) ≤ x ∧ x ≤ c.ctMax) : Within c.eMax x := by
  rw [Config.eMax]
  omega

/-! ## The control cycle -/

/-- Each register after a control cycle by its step of the pseudocode, from the registers already written
(R100). -/
theorem controlLaw_registers {c : Config} {k k' : ControllerState} {period : Half} {dutyCap : Byte}
    {fbRaw refRaw : Sample} (h : controlLaw c k period dutyCap fbRaw refRaw = k') :
    k'.target = k.target ∧
      k'.filteredFeedback = iir c k.filteredFeedback fbRaw ∧
      k'.filteredReference = iir c k.filteredReference refRaw ∧
      k'.maxDuty = maxDutyOf c k'.filteredReference period dutyCap ∧
      k'.compensatedTarget = compTarget c k'.filteredReference k.target ∧
      k'.previousError = k'.compensatedTarget - k'.filteredFeedback ∧
      k'.integral = nextIntegral c k.integral k'.previousError ∧
      k'.dutyCommand = clamp (plantOutput c k'.previousError k'.integral
        (dTerm c k'.previousError k.previousError)) 0 k'.maxDuty := by
  subst h
  exact ⟨rfl, rfl, rfl, rfl, rfl, rfl, rfl, rfl⟩

/-- A control cycle keeps the registers in their ranges: each write is in its range because the writes before
it are. -/
theorem controlLaw_keeps_inv {c : Config} {k : ControllerState} (hw : c.wf = true)
    (hinv : ControllerInv c k) (period : Half) (dutyCap : Byte) (fbRaw refRaw : Sample) :
    ControllerInv c (controlLaw c k period dutyCap fbRaw refRaw) := by
  generalize hk' : controlLaw c k period dutyCap fbRaw refRaw = k'
  obtain ⟨htarget, hff, hfr, hmax, hct, herr, hint, hduty⟩ := controlLaw_registers hk'
  obtain ⟨-, hk, -⟩ := wf_bounds hw
  have hffr : inFilterRange c k'.filteredFeedback := hff ▸ iir_inFilterRange hk hinv.feedback_range fbRaw
  have hfrr : inFilterRange c k'.filteredReference := hfr ▸ iir_inFilterRange hk hinv.reference_range refRaw
  have hmaxr : 0 ≤ k'.maxDuty.toInt ∧ k'.maxDuty.toInt ≤ 255 := hmax ▸ maxDutyOf_range c _ period dutyCap
  have hctr : 0 ≤ k'.compensatedTarget.toInt ∧ k'.compensatedTarget.toInt ≤ c.ctMax := by
    obtain ⟨hexact, hle⟩ := compTarget_exact hw hfrr hinv.target_le
    rw [hct, hexact]
    omega
  have herrr : -(c.fMax : Int) ≤ k'.previousError.toInt ∧ k'.previousError.toInt ≤ c.ctMax := by
    obtain ⟨hlo, hhi⟩ := hffr
    rw [herr, error_toInt hw hctr ⟨hlo, hhi⟩]
    omega
  exact {
    target_le := htarget ▸ hinv.target_le
    feedback_range := hffr
    reference_range := hfrr
    integral_window :=
      .inr (hint ▸ nextIntegral_inIntegralWindow hw hinv.integral_window (error_within herrr))
    compensated_range := hctr
    max_duty_range := hmaxr
    duty_range := by
      rw [hduty, clamp_toInt]
      exact clampInt_bounds hmaxr.1
    error_range := herrr }

/-- A control cycle is exact: the ranges of the registers before and after it leave no formula room to wrap. -/
theorem controlLaw_exact {c : Config} {k : ControllerState} (hw : c.wf = true)
    (hinv : ControllerInv c k) (period : Half) (dutyCap : Byte) (fbRaw refRaw : Sample) :
    ExactCycle c k period dutyCap fbRaw refRaw (controlLaw c k period dutyCap fbRaw refRaw) := by
  have hinv' := controlLaw_keeps_inv hw hinv period dutyCap fbRaw refRaw
  generalize hk' : controlLaw c k period dutyCap fbRaw refRaw = k' at hinv' ⊢
  obtain ⟨htarget, hff, hfr, hmax, hct, herr, hint, hduty⟩ := controlLaw_registers hk'
  obtain ⟨-, hk, -⟩ := wf_bounds hw
  have hwithin := error_within hinv'.error_range
  obtain ⟨hdterm, hdwithin⟩ := dTerm_exact hw hwithin (error_within hinv.error_range)
  exact {
    target := htarget
    feedback := by rw [hff, iir_toInt c _ _ hk]
    reference := by rw [hfr, iir_toInt c _ _ hk]
    max_duty := by rw [hmax, maxDutyOf_toInt period dutyCap hinv'.reference_range]
    compensated := by rw [hct, (compTarget_exact hw hinv'.reference_range hinv.target_le).1]
    error := by rw [herr, error_toInt hw hinv'.compensated_range hinv'.feedback_range]
    integral := by rw [hint, nextIntegral_toInt hw hinv.integral_window hwithin]
    duty := by
      rw [hduty, clamp_toInt, word_zero_toInt, plantOutput_toInt hw hwithin
        (integral_within hinv'.integral_window) (hdterm ▸ hdwithin), hdterm] }

/-- Settles O35: a control cycle is exact and keeps the ranges under condition W. -/
theorem controlCycleIsExactUnderConditionW : Obligations.ControlCycleIsExactUnderConditionW :=
  fun _ _ period dutyCap fbRaw refRaw hw hinv =>
    ⟨controlLaw_exact hw hinv period dutyCap fbRaw refRaw, controlLaw_keeps_inv hw hinv period dutyCap fbRaw refRaw⟩

end Sys2Proof.Machine
end

section
/-! RESET: the value of every register (spec/10_state.md R47), and that the reset state meets the machine's
invariant (R45) and the transition guard (spec/42_fade.md R176). -/

namespace Sys2Proof.Machine

open Sys2Proof

/-- Settles O51: RESET completes, and its state is read off field by field. -/
theorem resetGivesEveryRegisterItsValue : Obligations.ResetGivesEveryRegisterItsValue := fun s =>
  ⟨resetOperation s, rfl, by simp [ControllerState.zero, FadeState.allOff, resetOutputs]⟩

theorem reference_wf : Config.reference.wf = true := by decide

/-- Zero lies in every register's range (R45 (a), (d)). -/
theorem controllerInv_zero (c : Config) : ControllerInv c ControllerState.zero where
  target_le := Nat.zero_le _
  feedback_range := ⟨le_rfl, Int.natCast_nonneg _⟩
  reference_range := ⟨le_rfl, Int.natCast_nonneg _⟩
  integral_window := .inl rfl
  compensated_range := ⟨le_rfl, Int.natCast_nonneg _⟩
  max_duty_range := ⟨le_rfl, by decide⟩
  duty_range := ⟨le_rfl, le_rfl⟩
  error_range := ⟨Int.neg_nonpos_of_nonneg (Int.natCast_nonneg _), Int.natCast_nonneg _⟩

theorem resetOf_inv {c : Config} (hw : c.wf = true) : Inv (State.resetOf c) where
  cfg_wf := hw
  controller := controllerInv_zero c
  display :=
    { mask_a := rfl
      mask_b := rfl
      last_mask := rfl
      next_mask := fun _ h => nomatch h
      bus_in_gap := fun _ h => nomatch h
      bus_between := fun _ => rfl }
  sequencing :=
    { hold_in_fade := fun _ h => nomatch h
      micro_in_poll := fun h => absurd rfl h
      feedback_read := fun _ h => nomatch h
      boot_quiet := fun _ => ⟨rfl, rfl, rfl⟩
      pending_has_pair := fun h => nomatch h
      watchdog_fed := by
        obtain ⟨-, -, -, -, hwdt, -⟩ := wf_bounds hw
        exact hwdt }
  status_low := rfl
  compare_is_duty := rfl

/-- RESET's outputs write the bus once, with the all-off mask (R270). -/
theorem resetOf_guardInv (c : Config) : GuardInv (State.resetOf c) where
  guarded := rfl
  bus_seen := rfl
  gap_asked := fun _ h => nomatch h

/-- Settles O56: the machine's own reset state is the one of the reference configuration. -/
theorem resetMeetsInvariantAndGuard : Obligations.ResetMeetsInvariantAndGuard :=
  ⟨⟨resetOf_inv reference_wf, fun _ hw => resetOf_inv hw⟩,
    ⟨resetOf_guardInv Config.reference, resetOf_guardInv⟩⟩

end Sys2Proof.Machine
end

section
/-! The ownership of registers (spec/10_state.md R46): each context's operations leave the other's registers
alone. -/

namespace Sys2Proof.Machine

open Sys2Proof

theorem command_sameControlRegisters {i : Instr} {s t : State} (hi : i.isCommand = true)
    (h : exec i s = .next t) : sameControlRegisters s t := by
  obtain ⟨u, hu, hframe⟩ := exec_command i hi s
  obtain rfl : u = t := by simpa [hu] using h
  rw [hframe]
  exact ⟨rfl, rfl, rfl⟩

theorem applyFresh_sameControlRegisters {fresh : Bool} {w : Word} {s t : State}
    (h : applyFresh fresh w s = .next t) : sameControlRegisters s t := by
  obtain ⟨-, hx⟩ | ⟨-, rfl⟩ := applyFresh_next h
  · exact command_sameControlRegisters (decodeCommand_isCommand _ _) hx
  · exact ⟨rfl, rfl, rfl⟩

theorem execPoll_sameControlRegisters {fresh : Bool} {w : Word} {s t : State}
    (h : execPoll fresh w s = .next t) : sameControlRegisters s t := by
  obtain ⟨-, u, hu, rfl⟩ := execPoll_next h
  obtain ⟨hcontroller, hpending, hcontrol⟩ := applyFresh_sameControlRegisters hu
  exact ⟨hcontroller, hpending, hcontrol⟩

theorem execFade_sameControlRegisters {ts : Nat} {s t : State} (h : execFade ts s = .next t) :
    sameControlRegisters s t := by
  obtain ⟨-, ⟨-, rfl⟩ | ⟨-, rfl⟩⟩ := execFade_next h
  · exact ⟨rfl, rfl, rfl⟩
  · exact ⟨rfl, rfl, rfl⟩

/-- A SAMPLE reads `target`, `period` and `duty_cap`, but writes none of the polling context's registers,
whether it is served or lost (R46). -/
theorem execSample_samePollingRegisters {fb ref : Sample} {s t : State}
    (h : execSample fb ref s = .next t) : samePollingRegisters s t := by
  obtain ⟨-, rfl⟩ | ⟨-, rfl⟩ := execSample_next h
  · exact ⟨rfl, rfl, rfl, rfl, rfl, rfl, rfl, rfl, rfl⟩
  · exact ⟨rfl, rfl, rfl, rfl, rfl, rfl, rfl, rfl, rfl⟩

/-- Settles O58, by the sort of the instruction. -/
theorem operationsKeepToTheirOwnRegisters : Obligations.OperationsKeepToTheirOwnRegisters := by
  intro i s t h
  cases i
  case sample fb ref => exact execSample_samePollingRegisters h
  case poll fresh w => exact execPoll_sameControlRegisters h
  case fade ts => exact execFade_sameControlRegisters h
  case reset => trivial
  all_goals exact command_sameControlRegisters rfl h

end Sys2Proof.Machine
end

section
/-! Every step keeps the machine's invariant (spec/10_state.md R45): what the invariant says of the sequencing
state, then each operation on the state, then the instructions, the inputs and the step. -/

namespace Sys2Proof.Machine

open Sys2Proof

/-! ## Masks -/

/-- The mask table holds one-hot masks and every other code is all-off (R170, R171). -/
theorem digitMask_legal {c : Config} (hw : c.wf = true) (code : Nibble) :
    legalMask (digitMask c code) = true := by
  by_cases hoff : code = 0 ∨ 12 < code.toNat
  · rw [digitMask_off c hoff]
    rfl
  · have hpos : code.toNat ≠ 0 := fun h => hoff (.inl (BitVec.eq_of_toNat_eq h))
    obtain ⟨-, hhot, -⟩ := wf_masks hw
    have hmem := List.mem_of_getElem? (digitMask_on hw (code := code) (by omega) (by omega))
    simp [legalMask, hhot _ hmem]

/-- FADE computes `mask_a`, `mask_b` or all-off (R173). -/
theorem fadeMask_legal {s : State} (h : DisplayInv s) (ts : Nat) : legalMask (fadeMask ts s) = true := by
  unfold fadeMask fadeEval
  split_ifs
  · exact h.mask_a
  · exact h.mask_a
  · exact h.mask_b
  · rfl

section

variable {s t : State}

/-! ## The sequencing state -/

theorem Inv.boot_of_control (h : Inv s) (hc : s.control ≠ .idle) : s.boot = .running := by
  by_contra hb
  exact hc (h.sequencing.boot_quiet hb).1

theorem Inv.boot_of_polling (h : Inv s) (hp : s.polling ≠ .between) : s.boot = .running := by
  by_contra hb
  exact hp (h.sequencing.boot_quiet hb).2.1

/-- No gap is held in a POLL. -/
theorem Inv.not_holding (h : Inv s) (hphase : s.mainPhase = .poll) (m : Half) : s.polling ≠ .holding m := by
  intro hm
  rw [h.sequencing.hold_in_fade m hm] at hphase
  cases hphase

/-! ## The operations on the state -/

theorem setInbox_keeps_inv (h : Inv s) (inputs : List Input) : Inv (setInbox inputs s) :=
  { h with
    display := { h.display with }
    sequencing := { h.sequencing with } }

theorem resetOperation_keeps_inv (h : Inv s) : Inv (resetOperation s) :=
  have hreset := resetOf_inv h.cfg_wf
  { hreset with
    display := { hreset.display with }
    sequencing := { hreset.sequencing with } }

theorem takeInterrupt_keeps_inv (h : Inv s) (hboot : s.boot = .running) (fb ref : Sample) :
    Inv (takeInterrupt fb ref s) :=
  { h with
    display := { h.display with }
    sequencing :=
      { h.sequencing with
        boot_quiet := fun hb => absurd hboot hb
        pending_has_pair := fun hp => nomatch hp } }

theorem servePending_keeps_inv (h : Inv s) (hboot : s.boot = .running) : Inv (servePending s) :=
  have htaken := takeInterrupt_keeps_inv h hboot (servedPair s).1 (servedPair s).2
  { htaken with
    display := { htaken.display with }
    sequencing := { htaken.sequencing with } }

theorem runControlLaw_keeps_inv (h : Inv s) (hboot : s.boot = .running) (fb ref : Sample) :
    Inv (runControlLaw fb ref s) :=
  { h with
    controller := controlLaw_keeps_inv h.cfg_wf h.controller s.period s.dutyCap fb ref
    display := { h.display with }
    sequencing := { h.sequencing with boot_quiet := fun hb => absurd hboot hb }
    compare_is_duty := rfl }

theorem returnFromInterrupt_keeps_inv (h : Inv s) : Inv (returnFromInterrupt s) :=
  { h with
    display := { h.display with }
    sequencing :=
      { h.sequencing with
        boot_quiet := fun hb => ⟨rfl, (h.sequencing.boot_quiet hb).2⟩
        watchdog_fed := Nat.zero_lt_of_lt h.sequencing.watchdog_fed } }

theorem loseTrigger_keeps_inv (h : Inv s) (fb ref : Sample) : Inv (loseTrigger fb ref s) :=
  { h with
    display := { h.display with }
    sequencing := { h.sequencing with pending_has_pair := fun _ => List.concat_ne_nil _ _ } }

theorem bootStep_keeps_inv (h : Inv s) : Inv (bootStep s) := by
  obtain ⟨hb, hs⟩ | ⟨hb, hs⟩ | ⟨hb, hs⟩ | ⟨hb, hs⟩ | ⟨-, hs⟩ := bootStep_cases s <;> rw [hs]
  case inr.inr.inr.inr => exact h
  all_goals
    have hquiet := h.sequencing.boot_quiet (by simp [hb])
    exact
      { h with
        display := { h.display with }
        sequencing :=
          { h.sequencing with
            boot_quiet := fun _ => hquiet
            watchdog_fed := lt_of_le_of_lt (by simp) h.sequencing.watchdog_fed } }

/-- Between two micro-steps of a POLL any progress but a gap's may stand (R246). -/
theorem setPolling_keeps_inv {p : PollingProgress} (h : Inv s) (hboot : s.boot = .running)
    (hphase : s.mainPhase = .poll) (hp : ∀ m, p ≠ .holding m)
    (hread : ∀ fb, p = .feedbackRead fb → inFilterRange s.cfg fb) : Inv (setPolling p s) :=
  { h with
    display :=
      { h.display with
        next_mask := fun m hm => absurd hm (hp m)
        bus_in_gap := fun m hm => absurd hm (hp m)
        bus_between := fun _ => h.display.bus_between (h.not_holding hphase) }
    sequencing :=
      { h.sequencing with
        hold_in_fade := fun m hm => absurd hm (hp m)
        micro_in_poll := fun _ _ => hphase
        feedback_read := hread
        boot_quiet := fun hb => absurd hboot hb } }

theorem readFeedback_keeps_inv (h : Inv s) (hboot : s.boot = .running) (hphase : s.mainPhase = .poll) :
    Inv (readFeedback s) :=
  setPolling_keeps_inv h hboot hphase (by simp) fun fb hfb => by
    cases hfb
    exact h.controller.feedback_range

theorem statusWord_low (c : Config) (fb ref : Word) : (statusWord c fb ref).extractLsb' 0 12 = 0 :=
  BitVec.extractLsb'_append_eq_right

theorem publishStatus_keeps_inv (h : Inv s) (hphase : s.mainPhase = .poll) (fb : Word) :
    Inv (publishStatus fb s) :=
  { h with
    display :=
      { h.display with
        next_mask := fun _ hm => nomatch hm
        bus_in_gap := fun _ hm => nomatch hm
        bus_between := fun _ => h.display.bus_between (h.not_holding hphase) }
    sequencing :=
      { h.sequencing with
        hold_in_fade := fun _ hm => nomatch hm
        micro_in_poll := fun hne => absurd rfl hne
        feedback_read := fun _ hm => nomatch hm
        boot_quiet := fun hb =>
          have ⟨hcontrol, _, hpending⟩ := h.sequencing.boot_quiet hb
          ⟨hcontrol, rfl, hpending⟩ }
    status_low := statusWord_low _ _ _ }

theorem writePeriod_keeps_inv (h : Inv s) (per : Byte) : Inv (writePeriod per s) :=
  { h with
    display := { h.display with }
    sequencing := { h.sequencing with } }

theorem writeCap_keeps_inv (h : Inv s) (maxd : Byte) : Inv (writeCap maxd s) :=
  { h with
    display := { h.display with }
    sequencing := { h.sequencing with } }

theorem keepMask_keeps_inv (h : Inv s) (hp : s.polling = .between) : Inv (keepMask s) :=
  { h with
    display := { h.display with }
    sequencing :=
      { h.sequencing with
        hold_in_fade := fun m hm => by simp [hp] at hm
        micro_in_poll := fun _ _ => rfl } }

theorem startGap_keeps_inv {m : Half} (h : Inv s) (hboot : s.boot = .running)
    (hphase : s.mainPhase = .fade) (hm : legalMask m = true) : Inv (startGap m s) :=
  { h with
    display :=
      { h.display with
        next_mask := fun n hn => by
          cases hn
          exact hm
        bus_in_gap := fun _ _ => rfl
        bus_between := fun hne => absurd rfl (hne m) }
    sequencing :=
      { h.sequencing with
        hold_in_fade := fun _ _ => hphase
        micro_in_poll := fun _ hne => absurd rfl (hne m)
        feedback_read := fun _ hn => nomatch hn
        boot_quiet := fun hb => absurd hboot hb } }

theorem endGap_keeps_inv {m : Half} (h : Inv s) (hm : legalMask m = true) : Inv (endGap m s) :=
  { h with
    display :=
      { h.display with
        last_mask := hm
        next_mask := fun _ hn => nomatch hn
        bus_in_gap := fun _ hn => nomatch hn
        bus_between := fun _ => rfl }
    sequencing :=
      { h.sequencing with
        hold_in_fade := fun _ hn => nomatch hn
        micro_in_poll := fun hne => absurd rfl hne
        feedback_read := fun _ hn => nomatch hn
        boot_quiet := fun hb =>
          have ⟨hcontrol, _, hpending⟩ := h.sequencing.boot_quiet hb
          ⟨hcontrol, rfl, hpending⟩ } }

theorem periodEnds_keeps_inv (h : Inv s) : Inv (periodEnds s) :=
  { h with
    display := { h.display with }
    sequencing := { h.sequencing with } }

theorem conversionCompletes_keeps_inv (h : Inv s) (fb ref : Sample) :
    Inv (conversionCompletes fb ref s) := by
  obtain ⟨hrec, hs⟩ | ⟨-, hs⟩ := conversionCompletes_cases fb ref s <;> rw [hs]
  · obtain ⟨hboot, -, -⟩ := (triggerRecognised_iff s).mp hrec
    exact
      { h with
        display := { h.display with }
        sequencing :=
          { h.sequencing with
            boot_quiet := fun hb => absurd hboot hb
            pending_has_pair := fun _ => List.concat_ne_nil _ _ } }
  · exact loseTrigger_keeps_inv h fb ref

theorem clockTick_keeps_inv (h : Inv s) : Inv (clockTick s) := by
  obtain ⟨-, hs⟩ | ⟨-, -, hs⟩ | ⟨-, hlt, hs⟩ := clockTick_cases s <;> rw [hs]
  · exact h
  · exact resetOperation_keeps_inv h
  · exact
      { h with
        display := { h.display with }
        sequencing := { h.sequencing with watchdog_fed := hlt } }

/-! ## The instructions -/

/-- A command writes a clamped target, masks of the table, and registers that the invariant leaves free. -/
theorem command_keeps_inv {i : Instr} (hi : i.isCommand = true) (h : Inv s) (hx : exec i s = .next t) :
    Inv t := by
  cases i <;> simp only [Instr.isCommand, Bool.false_eq_true] at hi
  case settarget value =>
    cases hx
    exact
      { h with
        controller := { h.controller with target_le := (minHalf_toNat _ _).trans_le (min_le_right _ _) }
        display := { h.display with }
        sequencing := { h.sequencing with } }
  case digit code =>
    cases hx
    exact
      { h with
        display := { h.display with mask_a := digitMask_legal h.cfg_wf code }
        sequencing := { h.sequencing with } }
  case fadecfg codeA codeB t0 t1 =>
    cases hx
    exact
      { h with
        display :=
          { h.display with
            mask_a := digitMask_legal h.cfg_wf codeA
            mask_b := digitMask_legal h.cfg_wf codeB }
        sequencing := { h.sequencing with } }
  case tune per maxd =>
    simp only [exec, execTune] at hx
    split_ifs at hx <;> cases hx
    · exact writeCap_keeps_inv (writePeriod_keeps_inv h per) maxd
    · exact h
  case aux value =>
    cases hx
    exact
      { h with
        display := { h.display with }
        sequencing := { h.sequencing with } }
  all_goals
    cases hx
    exact h

theorem applyFresh_keeps_inv {fresh : Bool} {w : Word} (h : Inv s) (hx : applyFresh fresh w s = .next t) :
    Inv t := by
  obtain ⟨-, hx⟩ | ⟨-, rfl⟩ := applyFresh_next hx
  · exact command_keeps_inv (decodeCommand_isCommand _ _) h hx
  · exact h

/-- A POLL's command leaves it at its turn: the command writes no sequencing state. -/
theorem applyFresh_pollTurn {fresh : Bool} {w : Word} (hx : applyFresh fresh w s = .next t) :
    pollTurn t = pollTurn s := by
  obtain ⟨u, hu, -, -, hframe⟩ := applyFresh_total fresh w s
  obtain rfl : u = t := by simpa [hu] using hx
  rw [hframe]
  rfl

theorem execSample_keeps_inv {fb ref : Sample} (h : Inv s) (hx : execSample fb ref s = .next t) : Inv t := by
  obtain ⟨hmay, rfl⟩ | ⟨-, rfl⟩ := execSample_next hx
  · obtain ⟨hboot, -⟩ := (sampleMayStart_iff s).mp hmay
    exact returnFromInterrupt_keeps_inv
      (runControlLaw_keeps_inv (takeInterrupt_keeps_inv h hboot fb ref) hboot fb ref)
  · exact loseTrigger_keeps_inv h fb ref

theorem execPoll_keeps_inv {fresh : Bool} {w : Word} (h : Inv s) (hx : execPoll fresh w s = .next t) :
    Inv t := by
  obtain ⟨hturn, u, hu, rfl⟩ := execPoll_next hx
  obtain ⟨hboot, -, hphase, -⟩ := (pollTurn_iff u).mp ((applyFresh_pollTurn hu).trans hturn)
  exact publishStatus_keeps_inv (readFeedback_keeps_inv (applyFresh_keeps_inv h hu) hboot hphase) hphase _

theorem execFade_keeps_inv {ts : Nat} (h : Inv s) (hx : execFade ts s = .next t) : Inv t := by
  obtain ⟨hturn, hcases⟩ := execFade_next hx
  obtain ⟨hboot, -, hphase, hpolling⟩ := (fadeTurn_iff s).mp hturn
  have hmask := fadeMask_legal h.display ts
  obtain ⟨-, rfl⟩ | ⟨-, rfl⟩ := hcases
  · exact keepMask_keeps_inv h hpolling
  · exact endGap_keeps_inv (startGap_keeps_inv h hboot hphase hmask) hmask

theorem exec_keeps_inv {i : Instr} (h : Inv s) (hx : exec i s = .next t) : Inv t := by
  cases i
  case sample fb ref => exact execSample_keeps_inv h hx
  case poll fresh w => exact execPoll_keeps_inv h hx
  case fade ts => exact execFade_keeps_inv h hx
  case reset =>
    cases hx
    exact resetOperation_keeps_inv h
  all_goals exact command_keeps_inv rfl h hx

/-! ## The micro-steps of POLL and FADE -/

/-- Inside a POLL's micro-steps boot is over and the phase is POLL's. -/
theorem Inv.mid_poll (h : Inv s) (hne : s.polling ≠ .between) (hgap : ∀ m, s.polling ≠ .holding m) :
    s.boot = .running ∧ s.mainPhase = .poll :=
  ⟨h.boot_of_polling hne, h.sequencing.micro_in_poll hne hgap⟩

theorem microApply_keeps_inv {fresh : Bool} {w : Word} (h : Inv s) (hx : microApply fresh w s = .next t) :
    Inv t := by
  obtain ⟨hturn, u, hu, rfl⟩ := microApply_next hx
  obtain ⟨hboot, -, hphase, -⟩ := (pollTurn_iff u).mp ((applyFresh_pollTurn hu).trans hturn)
  exact setPolling_keeps_inv (applyFresh_keeps_inv h hu) hboot hphase (by simp) (by simp)

theorem microApplyPeriod_keeps_inv {w : Word} (h : Inv s) (hx : microApplyPeriod w s = .next t) : Inv t := by
  obtain ⟨hturn, per, maxd, -, rfl⟩ := microApplyPeriod_next hx
  obtain ⟨hboot, -, hphase, -⟩ := (pollTurn_iff s).mp hturn
  exact setPolling_keeps_inv (writePeriod_keeps_inv h per) hboot hphase (by simp) (by simp)

theorem microApplyCap_keeps_inv (h : Inv s) (hx : microApplyCap s = .next t) : Inv t := by
  obtain ⟨maxd, hp, rfl⟩ := microApplyCap_next hx
  obtain ⟨hboot, hphase⟩ := h.mid_poll (by simp [hp]) (by simp [hp])
  exact setPolling_keeps_inv (writeCap_keeps_inv h maxd) hboot hphase (by simp) (by simp)

theorem microRdfb_keeps_inv (h : Inv s) (hx : microRdfb s = .next t) : Inv t := by
  obtain ⟨hp, rfl⟩ := microRdfb_next hx
  obtain ⟨hboot, hphase⟩ := h.mid_poll (by simp [hp]) (by simp [hp])
  exact readFeedback_keeps_inv h hboot hphase

theorem microRdref_keeps_inv (h : Inv s) (hx : microRdref s = .next t) : Inv t := by
  obtain ⟨fb, hp, rfl⟩ := microRdref_next hx
  obtain ⟨-, hphase⟩ := h.mid_poll (by simp [hp]) (by simp [hp])
  exact publishStatus_keeps_inv h hphase fb

theorem microFadeBegin_keeps_inv {ts : Nat} (h : Inv s) (hx : microFadeBegin ts s = .next t) : Inv t := by
  obtain ⟨-, hturn, hcases⟩ := microFadeBegin_next hx
  obtain ⟨hboot, -, hphase, hpolling⟩ := (fadeTurn_iff s).mp hturn
  obtain ⟨-, rfl⟩ | ⟨-, rfl⟩ := hcases
  · exact keepMask_keeps_inv h hpolling
  · exact startGap_keeps_inv h hboot hphase (fadeMask_legal h.display ts)

theorem microFadeEnd_keeps_inv (h : Inv s) (hx : microFadeEnd s = .next t) : Inv t := by
  obtain ⟨m, hp, rfl⟩ := microFadeEnd_next hx
  exact endGap_keeps_inv h (h.display.next_mask m hp)

/-! ## The core's own work, the inputs and the step -/

theorem ownWork_keeps_inv (h : Inv s) (hwork : ownWork s = some t) : Inv t := by
  obtain ⟨fb, ref, hc, rfl⟩ | ⟨-, rfl⟩ | ⟨-, -, rfl⟩ | ⟨-, hboot, -, rfl⟩ := ownWork_some hwork
  · exact runControlLaw_keeps_inv h (h.boot_of_control (by simp [hc])) fb ref
  · exact returnFromInterrupt_keeps_inv h
  · exact bootStep_keeps_inv h
  · exact servePending_keeps_inv h hboot

theorem runInput_keeps_inv {inp : Input} (h : Inv s) (hx : runInput inp s = .next t) : Inv t := by
  obtain ⟨w, i, -, -, hx⟩ | ⟨fresh, w, -, hx⟩ | ⟨w, -, hx⟩ | ⟨-, hx⟩ | ⟨-, hx⟩ | ⟨-, hx⟩ | ⟨ts, -, hx⟩ |
    ⟨-, hx⟩ | ⟨fb, ref, -, rfl⟩ | ⟨-, rfl⟩ | ⟨-, rfl⟩ | ⟨-, rfl⟩ := runInput_next hx
  · exact exec_keeps_inv h hx
  · exact microApply_keeps_inv h hx
  · exact microApplyPeriod_keeps_inv h hx
  · exact microApplyCap_keeps_inv h hx
  · exact microRdfb_keeps_inv h hx
  · exact microRdref_keeps_inv h hx
  · exact microFadeBegin_keeps_inv h hx
  · exact microFadeEnd_keeps_inv h hx
  · exact conversionCompletes_keeps_inv h fb ref
  · exact periodEnds_keeps_inv h
  · exact clockTick_keeps_inv h
  · cases hwork : ownWork s with
    | none => exact h
    | some u => exact ownWork_keeps_inv h hwork

end

/-- Settles O55: a step waits, does the core's own work or runs one input, and each keeps the invariant. -/
theorem stepKeepsTheInvariant : Obligations.StepKeepsTheInvariant := by
  intro s t h hstep
  obtain ⟨-, ⟨-, -, rfl⟩ | hwork | ⟨inp, rest, -, -, hrun⟩⟩ := step_next hstep
  · exact h
  · exact ownWork_keeps_inv h hwork
  · exact runInput_keeps_inv (setInbox_keeps_inv h rest) hrun

end Sys2Proof.Machine
end

section
/-! A command writes values made of its operands and the configuration alone, so a second application finds them
already written (spec/20_memory.md R66, spec/43_commands.md R204). -/

namespace Sys2Proof.Machine

open Sys2Proof

theorem command_keeps_cfg {i : Instr} {s t : State} (hi : i.isCommand = true) (h : exec i s = .next t) :
    t.cfg = s.cfg :=
  (command_extendsHistory hi h).1

theorem execTune_again {per maxd : Byte} {s t : State} (h : execTune per maxd s = .next t) :
    execTune per maxd t = .next t := by
  unfold execTune at h
  split_ifs at h with htune <;> cases h
  · exact if_pos htune
  · exact if_neg htune

/-- The state a command answers is a fixed point of that command. -/
theorem command_again {i : Instr} {s t : State} (hi : i.isCommand = true) (h : exec i s = .next t) :
    exec i t = .next t := by
  cases i
  case tune per maxd => exact execTune_again h
  case sample | poll | fade | reset => cases hi
  all_goals
    cases h
    rfl

/-- Settles O12: the word decodes to the same command again, for the configuration is the same, and the state is
a fixed point of that command. -/
theorem commandsAreIdempotent : Obligations.CommandsAreIdempotent := by
  intro w s
  have hcommand := decodeCommand_isCommand s.cfg.hasTune w
  obtain ⟨t, ht, -⟩ := exec_command _ hcommand s
  refine ⟨t, ht, ?_⟩
  rw [command_keeps_cfg hcommand ht]
  exact command_again hcommand ht

end Sys2Proof.Machine
end

section
/-! While a SAMPLE runs the polling context stands still (spec/20_memory.md R69, spec/60_exceptions.md R244): the
core's own work and the environment write none of its registers, and an input of its own has to wait. -/

namespace Sys2Proof.Machine

open Sys2Proof

theorem samePollingRegisters_refl (s : State) : samePollingRegisters s s :=
  ⟨rfl, rfl, rfl, rfl, rfl, rfl, rfl, rfl, rfl⟩

/-! ## The core's own work -/

theorem bootStep_samePollingRegisters (s : State) : samePollingRegisters s (bootStep s) := by
  obtain ⟨-, h⟩ | ⟨-, h⟩ | ⟨-, h⟩ | ⟨-, h⟩ | ⟨-, h⟩ := bootStep_cases s <;> rw [h] <;>
    exact samePollingRegisters_refl s

theorem ownWork_samePollingRegisters {s t : State} (h : ownWork s = some t) : samePollingRegisters s t := by
  obtain ⟨fb, ref, -, rfl⟩ | ⟨-, rfl⟩ | ⟨-, -, rfl⟩ | ⟨-, -, -, rfl⟩ := ownWork_some h
  · exact samePollingRegisters_refl s
  · exact samePollingRegisters_refl s
  · exact bootStep_samePollingRegisters s
  · exact samePollingRegisters_refl s

/-- A SAMPLE in progress is work of the core's own. -/
theorem ownWork_ne_none {s : State} (h : s.control ≠ .idle) : ownWork s ≠ none :=
  fun hnone => h (ownWork_none.mp hnone).1

/-! ## The inputs that do not wait -/

theorem conversionCompletes_samePollingRegisters (fb ref : Sample) (s : State) :
    samePollingRegisters s (conversionCompletes fb ref s) := by
  obtain ⟨-, h⟩ | ⟨-, h⟩ := conversionCompletes_cases fb ref s <;> rw [h] <;>
    exact samePollingRegisters_refl s

theorem clockTick_samePollingRegisters_or_reset (s : State) :
    samePollingRegisters s (clockTick s) ∨ clockTick s = resetOperation s := by
  obtain ⟨-, h⟩ | ⟨-, -, h⟩ | ⟨-, -, h⟩ := clockTick_cases s
  · left
    rw [h]
    exact samePollingRegisters_refl s
  · exact .inr h
  · left
    rw [h]
    exact samePollingRegisters_refl s

/-- Of the events, only RESET happens at once (R244, R245). -/
theorem takenAtOnce_event {c : Config} {w : Nat} {i : Instr} (hd : decodeEvent c w = .ok i)
    (h : takenAtOnce c (.event w) = true) : i = .reset := by
  simpa [takenAtOnce, hd] using h

/-- Everything an input that happens at once can do when it answers a next state. -/
theorem runInput_at_once_next {inp : Input} {s t : State} (hnow : takenAtOnce s.cfg inp = true)
    (h : runInput inp s = .next t) :
    t = resetOperation s ∨ (∃ fb ref, t = conversionCompletes fb ref s) ∨ t = periodEnds s ∨
      t = clockTick s ∨ t = (ownWork s).getD s := by
  cases inp
  case event w =>
    obtain ⟨v, i, hv, hd, hx⟩ | h := runInput_next h
    · cases hv
      obtain rfl := takenAtOnce_event hd hnow
      cases hx
      exact .inl rfl
    · simp at h
  case conversion fb ref =>
    cases h
    exact .inr (.inl ⟨fb, ref, rfl⟩)
  case periodBoundary =>
    cases h
    exact .inr (.inr (.inl rfl))
  case tick =>
    cases h
    exact .inr (.inr (.inr (.inl rfl)))
  case proceed =>
    cases h
    exact .inr (.inr (.inr (.inr rfl)))
  all_goals cases hnow

theorem runInput_at_once_samePollingRegisters_or_reset {inp : Input} {s t : State}
    (hnow : takenAtOnce s.cfg inp = true) (h : runInput inp s = .next t) :
    samePollingRegisters s t ∨ t = resetOperation s := by
  obtain rfl | ⟨fb, ref, rfl⟩ | rfl | rfl | rfl := runInput_at_once_next hnow h
  · exact .inr rfl
  · exact .inl (conversionCompletes_samePollingRegisters fb ref s)
  · exact .inl (samePollingRegisters_refl s)
  · exact clockTick_samePollingRegisters_or_reset s
  · left
    cases hwork : ownWork s with
    | none => exact samePollingRegisters_refl s
    | some u => exact ownWork_samePollingRegisters hwork

/-- Settles O45: with a SAMPLE in progress the core has work of its own, so the step does that work or runs an
input that happens at once. -/
theorem nothingPollsDuringASample : Obligations.NothingPollsDuringASample := by
  intro s t hsample hstep
  have hbusy := ownWork_ne_none hsample
  obtain ⟨-, ⟨-, hnone, -⟩ | hwork | ⟨inp, rest, -, hnow | hnone, hrun⟩⟩ := step_next hstep
  · exact absurd hnone hbusy
  · exact .inl (ownWork_samePollingRegisters hwork)
  · obtain hsame | rfl := runInput_at_once_samePollingRegisters_or_reset (s := setInbox rest s) hnow hrun
    · exact .inl hsame
    · exact .inr rfl
  · exact absurd hnone hbusy

end Sys2Proof.Machine
end

section
/-! How a command word decodes (spec/30_encoding.md R88, R89), opcode by opcode: what `decodeCommand` answers, and
which bits of the word its answer is made of. -/

namespace Sys2Proof.Machine

open Sys2Proof

/-! ## The decoder, opcode by opcode -/

section
variable {hasTune : Bool} {w : Word}

theorem decodeCommand_settarget (h : field w 0 4 = 1) :
    decodeCommand hasTune w = .settarget (field w 16 16) := by
  simp [decodeCommand, h]

theorem decodeCommand_digit (h : field w 0 4 = 2) :
    decodeCommand hasTune w = .digit (field w 16 4) := by
  simp [decodeCommand, h]

theorem decodeCommand_fadecfg (h : field w 0 4 = 3) :
    decodeCommand hasTune w =
      .fadecfg (field w 8 4) (field w 12 4) (field w 16 8) (field w 24 8) := by
  simp [decodeCommand, h]

theorem decodeCommand_tune (h : field w 0 4 = 4) (htune : hasTune = true) :
    decodeCommand hasTune w = .tune (field w 16 8) (field w 24 8) := by
  simp [decodeCommand, h, htune]

theorem decodeCommand_aux (h : field w 0 4 = 5) :
    decodeCommand hasTune w = .aux (field w 16 16) := by
  simp [decodeCommand, h]

end

/-- The opcode names no command: 0, 6 to 15, and 4 where `HAS_TUNE` is false (R81). -/
def NamesNoCommand (hasTune : Bool) (opc : Nibble) : Prop :=
  opc.toNat = 0 ∨ 6 ≤ opc.toNat ∨ (opc.toNat = 4 ∧ hasTune = false)

theorem opcode_cases (hasTune : Bool) (opc : Nibble) :
    opc = 1 ∨ opc = 2 ∨ opc = 3 ∨ (opc = 4 ∧ hasTune = true) ∨ opc = 5 ∨ NamesNoCommand hasTune opc := by
  simp only [NamesNoCommand, ← BitVec.toNat_inj]
  cases hasTune <;> simp only [BitVec.reduceToNat, reduceCtorEq, and_true, and_false] <;> omega

theorem decodeCommand_ignored {hasTune : Bool} {w : Word} (h : NamesNoCommand hasTune (field w 0 4)) :
    decodeCommand hasTune w = ignoredOf (field w 0 4) := by
  have other : ∀ n : Nibble, 1 ≤ n.toNat → n.toNat ≤ 5 → n.toNat ≠ 4 → field w 0 4 ≠ n := by
    rintro n h1 h5 h4 rfl
    unfold NamesNoCommand at h
    omega
  have notTune : ¬ (field w 0 4 = 4 ∧ hasTune = true) := by
    rintro ⟨h4, rfl⟩
    simp [NamesNoCommand, h4] at h
  rw [decodeCommand, if_neg (other 1 (by decide) (by decide) (by decide)),
    if_neg (other 2 (by decide) (by decide) (by decide)),
    if_neg (other 3 (by decide) (by decide) (by decide)), if_neg notTune,
    if_neg (other 5 (by decide) (by decide) (by decide))]

theorem ignoredOf_isIgnored (opc : Nibble) : (ignoredOf opc).isIgnored = true := by
  unfold ignoredOf
  split <;> rfl

/-- Only a configuration with `HAS_TUNE` decodes a word as TUNE (R81). -/
theorem hasTune_of_decodeCommand_tune {hasTune : Bool} {w : Word} {per maxd : Byte}
    (h : decodeCommand hasTune w = .tune per maxd) : hasTune = true := by
  obtain ho | ho | ho | ⟨-, htune⟩ | ho | ho := opcode_cases hasTune (field w 0 4)
  · cases (decodeCommand_settarget ho).symm.trans h
  · cases (decodeCommand_digit ho).symm.trans h
  · cases (decodeCommand_fadecfg ho).symm.trans h
  · exact htune
  · cases (decodeCommand_aux ho).symm.trans h
  · have hignored := ignoredOf_isIgnored (field w 0 4)
    rw [← decodeCommand_ignored ho, h] at hignored
    cases hignored

/-- Settles O3: each opcode's equation, with the fields read as numbers. -/
theorem everyCommandWordDecodesByItsFields : Obligations.EveryCommandWordDecodesByItsFields := by
  intro hasTune w
  have opcode : ∀ n : Nibble, w.toNat % 16 = n.toNat → field w 0 4 = n := fun n => (opcode_eq_iff w n).mpr
  have hnumber : (field w 0 4).toNat = w.toNat % 16 := ((opcode_eq_iff w _).mp rfl).symm
  simp only [← field_eq_ofNat]
  refine ⟨fun h => decodeCommand_settarget (opcode 1 h), fun h => decodeCommand_digit (opcode 2 h),
    fun h => decodeCommand_fadecfg (opcode 3 h), fun h => decodeCommand_tune (opcode 4 h),
    fun h => decodeCommand_aux (opcode 5 h), fun h => ?_⟩
  rw [← hnumber] at h
  rw [decodeCommand_ignored h]
  exact ignoredOf_isIgnored _

/-! ## The bits that matter -/

/-- Two words that agree under a mask agree on every field that the mask covers. -/
theorem field_eq_of_and_eq {v w m : Word} {lo len : Nat} (h : v &&& m = w &&& m)
    (hm : field m lo len = BitVec.allOnes len) : field v lo len = field w lo len := by
  have h' := congrArg (field · lo len) h
  simp only [field, BitVec.extractLsb'_and] at h' hm ⊢
  simpa only [hm, BitVec.and_allOnes] using h'

/-- The opcode's bits always have a meaning. -/
theorem meaningfulBits_opcode (hasTune : Bool) (opc : Nibble) :
    field (meaningfulBits hasTune opc) 0 4 = BitVec.allOnes 4 := by
  unfold meaningfulBits
  split
  case h_4 => cases hasTune <;> rfl
  all_goals rfl

/-! The masks of R82 to R85. -/

theorem meaningfulBits_settarget (hasTune : Bool) : meaningfulBits hasTune 1 = 0xFFFF000F := by
  simp [meaningfulBits]

theorem meaningfulBits_digit (hasTune : Bool) : meaningfulBits hasTune 2 = 0x000F000F := by
  simp [meaningfulBits]

theorem meaningfulBits_fadecfg (hasTune : Bool) : meaningfulBits hasTune 3 = 0xFFFFFF0F := by
  simp [meaningfulBits]

theorem meaningfulBits_tune : meaningfulBits true 4 = 0xFFFF000F := by
  simp [meaningfulBits]

theorem meaningfulBits_aux (hasTune : Bool) : meaningfulBits hasTune 5 = 0xFFFF000F := by
  simp [meaningfulBits]

/-- Settles O4: the two words have the same opcode, and its format covers every field it reads. -/
theorem ignoredBitsDoNotMatter : Obligations.IgnoredBitsDoNotMatter := by
  intro hasTune v w hagree
  have same (lo len : Nat) :
      field (meaningfulBits hasTune (field w 0 4)) lo len = BitVec.allOnes len →
        field v lo len = field w lo len :=
    field_eq_of_and_eq hagree
  have hopcode := same 0 4 (meaningfulBits_opcode _ _)
  obtain ho | ho | ho | ⟨ho, rfl⟩ | ho | ho := opcode_cases hasTune (field w 0 4)
  · rw [ho, meaningfulBits_settarget] at same
    rw [decodeCommand_settarget (hopcode.trans ho), decodeCommand_settarget ho, same 16 16 rfl]
  · rw [ho, meaningfulBits_digit] at same
    rw [decodeCommand_digit (hopcode.trans ho), decodeCommand_digit ho, same 16 4 rfl]
  · rw [ho, meaningfulBits_fadecfg] at same
    rw [decodeCommand_fadecfg (hopcode.trans ho), decodeCommand_fadecfg ho, same 8 4 rfl,
      same 12 4 rfl, same 16 8 rfl, same 24 8 rfl]
  · rw [ho, meaningfulBits_tune] at same
    rw [decodeCommand_tune (hopcode.trans ho) rfl, decodeCommand_tune ho rfl, same 16 8 rfl,
      same 24 8 rfl]
  · rw [ho, meaningfulBits_aux] at same
    rw [decodeCommand_aux (hopcode.trans ho), decodeCommand_aux ho, same 16 16 rfl]
  · rw [decodeCommand_ignored ho, ← hopcode]
    exact decodeCommand_ignored (by rwa [hopcode])

end Sys2Proof.Machine
end

section
/-! Decoding an encoding (spec/30_encoding.md R89, R90, R92): every field is read back from the number that the
encoder put it into. -/

namespace Sys2Proof.Machine

open Sys2Proof Sys2Proof.Laws

/-! ## The command words -/

/-- A field of the word of a number, when those digits of the number are the field's. -/
theorem field_ofNat_eq {n lo len : Nat} {x : BitVec len} (h : n % 2 ^ 32 / 2 ^ lo % 2 ^ len = x.toNat) :
    field (BitVec.ofNat 32 n) lo len = x := by
  apply BitVec.eq_of_toNat_eq
  rw [field_toNat, BitVec.toNat_ofNat, h]

/-- The opcode of an instruction's word is its table row's. -/
theorem opcode_of_tableMatch {i : Instr} {w : Word} {opc : Nibble} (h : TableMatch.Statement i)
    (hw : encode i = .command w) (hopc : rowMatch i = opc.toNat) :
    field w 0 4 = opc := by
  have hbits := h.1
  rw [hw, hopc] at hbits
  exact (opcode_eq_iff w opc).mpr hbits

theorem decode_encode_settarget (c : Config) (value : Half) :
    decode c (encode (.settarget value)) = .ok (.settarget value) := by
  have hvalue := value.isLt
  rw [encode, decode, decodeCommand_settarget (opcode_of_tableMatch (TableMatch.settarget value) rfl rfl),
    field_ofNat_eq (x := value) (by omega)]

theorem decode_encode_digit (c : Config) (code : Nibble) :
    decode c (encode (.digit code)) = .ok (.digit code) := by
  have hcode := code.isLt
  rw [encode, decode, decodeCommand_digit (opcode_of_tableMatch (TableMatch.digit code) rfl rfl),
    field_ofNat_eq (x := code) (by omega)]

theorem decode_encode_fadecfg (c : Config) (codeA codeB : Nibble) (t0 t1 : Byte) :
    decode c (encode (.fadecfg codeA codeB t0 t1)) = .ok (.fadecfg codeA codeB t0 t1) := by
  have ha := codeA.isLt
  have hb := codeB.isLt
  have h0 := t0.isLt
  have h1 := t1.isLt
  rw [encode, decode, decodeCommand_fadecfg (opcode_of_tableMatch (TableMatch.fadecfg codeA codeB t0 t1) rfl rfl),
    field_ofNat_eq (x := codeA) (by omega), field_ofNat_eq (x := codeB) (by omega),
    field_ofNat_eq (x := t0) (by omega), field_ofNat_eq (x := t1) (by omega)]

theorem decode_encode_tune {c : Config} (htune : c.hasTune = true) (per maxd : Byte) :
    decode c (encode (.tune per maxd)) = .ok (.tune per maxd) := by
  have hper := per.isLt
  have hmaxd := maxd.isLt
  rw [encode, decode, decodeCommand_tune (opcode_of_tableMatch (TableMatch.tune per maxd) rfl rfl) htune,
    field_ofNat_eq (x := per) (by omega), field_ofNat_eq (x := maxd) (by omega)]

theorem decode_encode_aux (c : Config) (value : Half) :
    decode c (encode (.aux value)) = .ok (.aux value) := by
  have hvalue := value.isLt
  rw [encode, decode, decodeCommand_aux (opcode_of_tableMatch (TableMatch.aux value) rfl rfl),
    field_ofNat_eq (x := value) (by omega)]

/-- A word whose opcode names no command decodes to that opcode's IGNORED outcome (R87). -/
theorem decode_ignored {c : Config} {w : Word} (h : NamesNoCommand c.hasTune (field w 0 4)) :
    decode c (.command w) = .ok (ignoredOf (field w 0 4)) := by
  rw [decode, decodeCommand_ignored h]

/-! ## The event words -/

theorem decodeEvent_sample {c : Config} {w : Nat} {fbRaw refRaw : Sample} (hkind : eventField w 0 8 = 0)
    (hend : w < 2 ^ 40) (hfb : eventField w 8 16 = fbRaw.toNat) (href : eventField w 24 16 = refRaw.toNat) :
    decodeEvent c w = .ok (.sample fbRaw refRaw) := by
  have hfbBits := fbRaw.isLt
  have hrefBits := refRaw.isLt
  rw [decodeEvent, hkind]
  simp only [hfb, href]
  rw [if_neg (by omega), if_neg (by omega), BitVec.ofNat_toNat, BitVec.ofNat_toNat, BitVec.setWidth_eq,
    BitVec.setWidth_eq]

theorem decodeEvent_poll {c : Config} {w : Nat} {fresh : Bool} {word : Word} (hkind : eventField w 0 8 = 1)
    (hend : w < 2 ^ 48) (hfresh : eventField w 8 8 = fresh.toNat) (hword : eventField w 16 32 = word.toNat) :
    decodeEvent c w = .ok (.poll fresh word) := by
  have hbit := fresh.toNat_lt
  have hmark : (fresh.toNat == 1) = fresh := by cases fresh <;> rfl
  rw [decodeEvent, hkind]
  simp only [hfresh, hword, hmark]
  rw [if_neg (by omega), if_neg (by omega), BitVec.ofNat_toNat, BitVec.setWidth_eq]

theorem decodeEvent_fade {c : Config} {w ts : Nat} (hkind : eventField w 0 8 = 2) (hop : w / 2 ^ 8 = ts)
    (hts : ts < 2 ^ c.tsBits) : decodeEvent c w = .ok (.fade ts) := by
  rw [decodeEvent, hkind]
  simp only [hop, hts, if_true]

theorem decode_encode_sample (c : Config) (fbRaw refRaw : Sample) :
    decode c (encode (.sample fbRaw refRaw)) = .ok (.sample fbRaw refRaw) := by
  have hfb := fbRaw.isLt
  have href := refRaw.isLt
  exact decodeEvent_sample (by unfold eventField; omega) (by omega) (by unfold eventField; omega)
    (by unfold eventField; omega)

theorem decode_encode_poll (c : Config) (fresh : Bool) (word : Word) :
    decode c (encode (.poll fresh word)) = .ok (.poll fresh word) := by
  have hfresh := fresh.toNat_lt
  have hword := word.isLt
  exact decodeEvent_poll (by unfold eventField; omega) (by omega) (by unfold eventField; omega)
    (by unfold eventField; omega)

theorem decode_encode_fade {c : Config} {ts : Nat} (hts : ts < 2 ^ c.tsBits) :
    decode c (encode (.fade ts)) = .ok (.fade ts) :=
  decodeEvent_fade (by unfold eventField; omega) (by omega) hts

/-- Every instruction that the configuration can be given decodes from its own encoding. -/
theorem decode_encode {c : Config} {i : Instr} (hi : i.wf c = true) : decode c (encode i) = .ok i := by
  cases i
  case settarget value => exact decode_encode_settarget c value
  case digit code => exact decode_encode_digit c code
  case fadecfg codeA codeB t0 t1 => exact decode_encode_fadecfg c codeA codeB t0 t1
  case tune per maxd => exact decode_encode_tune hi per maxd
  case aux value => exact decode_encode_aux c value
  case ignored0 => exact decode_ignored (.inl rfl)
  case ignored4 => exact decode_ignored (.inr (.inr ⟨rfl, by simpa [Instr.wf] using hi⟩))
  case sample fbRaw refRaw => exact decode_encode_sample c fbRaw refRaw
  case poll fresh word => exact decode_encode_poll c fresh word
  case fade ts => exact decode_encode_fade (by simpa [Instr.wf] using hi)
  case reset => rfl
  all_goals exact decode_ignored (.inr (.inl (by decide)))

/-- Settles O1, instruction by instruction. -/
theorem encodingsDecodeBack : Obligations.EncodingsDecodeBack := fun _ _ => decode_encode

/-- A command's word decodes to that command. -/
theorem decodeCommand_of_encode {c : Config} {i : Instr} {w : Word} (hi : i.wf c = true)
    (hw : encode i = .command w) : decodeCommand c.hasTune w = i := by
  have h := decode_encode hi
  rw [hw] at h
  exact Except.ok.inj h

/-- A worked example of R95 is right both ways once the instruction's word is the one it lists. -/
theorem worked_encoding {i : Instr} {w : Word} (hi : i.wf Config.reference = true)
    (hw : encode i = .command w) : encode i = .command w ∧ decodeCommand true w = i :=
  ⟨hw, decodeCommand_of_encode hi hw⟩

theorem settarget_1000_stores_200 {s : State} (hc : s.cfg = Config.reference) :
    ∃ t, exec (.settarget 1000) s = .next t ∧ t.controller.target = 200 := by
  refine ⟨_, rfl, ?_⟩
  rw [hc]
  rfl

/-- Settles O5: each instruction's word is computed, and the decoder's side is the round trip's. -/
theorem workedEncodingsHold : Obligations.WorkedEncodingsHold :=
  ⟨worked_encoding rfl rfl, worked_encoding rfl rfl, fun _ => settarget_1000_stores_200,
    worked_encoding rfl rfl, worked_encoding rfl rfl, worked_encoding rfl rfl, worked_encoding rfl rfl,
    decodeCommand_ignored (.inr (.inl (by decide)))⟩

end Sys2Proof.Machine
end

section
/-! The statements of the event stream (spec/30_encoding.md R90, R91, R93): what the step does with an event word,
and a POLL as its micro-steps. -/

namespace Sys2Proof.Machine

open Sys2Proof

/-! ## The alternation -/

/-- It is never POLL's turn and FADE's at once (R44). -/
theorem not_pollTurn_of_fadeTurn {s : State} (h : fadeTurn s = true) : ¬ pollTurn s = true := by
  obtain ⟨-, -, hfade, -⟩ := (fadeTurn_iff s).mp h
  intro hpoll
  obtain ⟨-, -, hphase, -⟩ := (pollTurn_iff s).mp hpoll
  rw [hfade] at hphase
  cases hphase

/-- Settles O16: each operation refuses outside its turn, and the other's turn is outside it. -/
theorem brokenAlternationIsRefused : Obligations.BrokenAlternationIsRefused := by
  intro fresh word ts s
  exact ⟨fun hfade => if_neg (not_pollTurn_of_fadeTurn hfade),
    fun hpoll => if_neg fun hfade => not_pollTurn_of_fadeTurn hfade hpoll⟩

/-! ## A core at rest runs the head of the inbox -/

/-- Under an accepted configuration, boot is over and no SAMPLE is pending or running: the core has no work of its
own, so the step is the next input's. -/
structure AtRest (s : State) : Prop where
  cfg_wf : s.cfg.wf = true
  running : s.boot = .running
  idle : s.control = .idle
  quiet : s.samplePending = false

theorem AtRest.ownWork_none {s : State} (h : AtRest s) : ownWork s = none :=
  Machine.ownWork_none.mpr ⟨h.idle, h.running, h.quiet⟩

theorem AtRest.step_head {s : State} (h : AtRest s) (inp : Input) (rest : List Input) :
    step (setInbox (inp :: rest) s) = runInput inp (setInbox rest s) :=
  Machine.step_head h.cfg_wf h.ownWork_none

theorem AtRest.setPolling {s : State} (h : AtRest s) (p : PollingProgress) : AtRest (setPolling p s) :=
  ⟨h.cfg_wf, h.running, h.idle, h.quiet⟩

theorem runInput_event {s : State} {w : Nat} {i : Instr} (hd : decodeEvent s.cfg w = .ok i) :
    runInput (.event w) s = exec i s := by
  simp only [runInput, hd]

theorem takenAtOnce_reset {c : Config} {w : Nat} (hd : decodeEvent c w = .ok .reset) :
    takenAtOnce c (.event w) = true := by
  simp [takenAtOnce, hd]

/-- Settles O53: RESET happens at once, and a core at rest runs the head of the inbox. -/
theorem stepRunsTheDecodedEvent : Obligations.StepRunsTheDecodedEvent := by
  intro w rest i s hw hinbox hd hready
  have hs : s = setInbox (.event w :: rest) s := by
    rw [← hinbox]
    rfl
  have hstep : step (setInbox (.event w :: rest) s) = runInput (.event w) (setInbox rest s) := by
    obtain rfl | ⟨hboot, hcontrol, hpending⟩ := hready
    · exact step_at_once hw (takenAtOnce_reset hd)
    · exact AtRest.step_head ⟨hw, hboot, hcontrol, hpending⟩ _ _
  calc step s = step (setInbox (.event w :: rest) s) := congrArg step hs
    _ = runInput (.event w) (setInbox rest s) := hstep
    _ = exec i (setInbox rest s) := runInput_event hd

/-! ## What a command does not look at -/

theorem execTune_setInbox {per maxd : Byte} {s u : State} (is : List Input)
    (h : execTune per maxd s = .next u) :
    execTune per maxd (setInbox is s) = .next (setInbox is u) := by
  unfold execTune at h
  split_ifs at h with htune <;> cases h
  · exact if_pos htune
  · exact if_neg htune

/-- No command looks at the inputs still to come. -/
theorem command_setInbox {i : Instr} {s u : State} (is : List Input) (hi : i.isCommand = true)
    (h : exec i s = .next u) : exec i (setInbox is s) = .next (setInbox is u) := by
  cases i
  case tune per maxd => exact execTune_setInbox is h
  case sample | poll | fade | reset => cases hi
  all_goals
    cases h
    rfl

theorem applyFresh_setInbox {fresh : Bool} {w : Word} {s u : State} (is : List Input)
    (h : applyFresh fresh w s = .next u) :
    applyFresh fresh w (setInbox is s) = .next (setInbox is u) := by
  obtain ⟨rfl, hx⟩ | ⟨rfl, rfl⟩ := applyFresh_next h
  · have hcommand := decodeCommand_isCommand s.cfg.hasTune w
    exact (applyCommand_eq_exec hcommand _).trans (command_setInbox is hcommand hx)
  · rfl

/-- A POLL's first micro-step leaves the core at rest. -/
theorem AtRest.applyFresh {fresh : Bool} {w : Word} {s u : State} (hs : AtRest s)
    (h : applyFresh fresh w s = .next u) : AtRest u := by
  obtain ⟨v, hv, -, -, hframe⟩ := applyFresh_total fresh w s
  obtain rfl : v = u := by simpa [hv] using h
  rw [hframe]
  exact ⟨hs.cfg_wf, hs.running, hs.idle, hs.quiet⟩

/-! ## A POLL and its micro-steps -/

/-- The state after the two reads of a POLL whose first micro-step answers `u` (R200, R212). -/
def polled (u : State) : State := publishStatus u.controller.filteredFeedback (readFeedback u)

theorem exec_poll {fresh : Bool} {word : Word} {s u : State} (h : applyFresh fresh word s = .next u)
    (hturn : pollTurn s = true) : exec (.poll fresh word) s = .next (polled u) := by
  simp only [exec, execPoll, if_pos hturn, h, andThen, polled]

theorem microApply_eq {fresh : Bool} {word : Word} {s u : State}
    (h : applyFresh fresh word s = .next u) (hturn : pollTurn s = true) :
    microApply fresh word s = .next (setPolling .applied u) := by
  simp only [microApply, if_pos hturn, h, andThen]

theorem microApplyPeriod_eq {word : Word} {s : State} {per maxd : Byte} (hturn : pollTurn s = true)
    (hd : decodeCommand s.cfg.hasTune word = .tune per maxd) :
    microApplyPeriod word s = .next (setPolling (.periodWritten maxd) (writePeriod per s)) := by
  simp only [microApplyPeriod, if_pos hturn, hd]

/-- One statement in front of a run at rest. -/
theorem AtRest.run_succ {n : Nat} {inp : Input} {rest : List Input} {s t : State} (hs : AtRest s)
    (h : runInput inp (setInbox rest s) = .next t) :
    core.run (n + 1) (setInbox (inp :: rest) s) = core.run n t :=
  run_of_step ((hs.step_head inp rest).trans h)

/-- `POLL.rdfb` and `POLL.rdref` after the first micro-step. -/
theorem run_poll_reads {u : State} (hu : AtRest u) (rest : List Input) :
    core.run 2 (setInbox (.pollRdfb :: .pollRdref :: rest) (setPolling .applied u)) =
      .next (setInbox rest (polled u)) :=
  calc core.run 2 (setInbox (.pollRdfb :: .pollRdref :: rest) (setPolling .applied u))
      = core.run 1 (setInbox (.pollRdref :: rest) (readFeedback u)) :=
        (hu.setPolling _).run_succ rfl
    _ = core.run 0 (setInbox rest (polled u)) := (hu.setPolling _).run_succ rfl
    _ = .next (setInbox rest (polled u)) := rfl

/-- `POLL.apply`, `POLL.rdfb`, `POLL.rdref`. -/
theorem run_poll {fresh : Bool} {word : Word} {s u : State} (hs : AtRest s) (hturn : pollTurn s = true)
    (h : applyFresh fresh word s = .next u) (rest : List Input) :
    core.run 3 (setInbox (.pollApply fresh word :: .pollRdfb :: .pollRdref :: rest) s) =
      .next (setInbox rest (polled u)) :=
  calc core.run 3 (setInbox (.pollApply fresh word :: .pollRdfb :: .pollRdref :: rest) s)
      = core.run 2 (setInbox (.pollRdfb :: .pollRdref :: rest) (setPolling .applied u)) :=
        hs.run_succ (microApply_eq (applyFresh_setInbox _ h) hturn)
    _ = .next (setInbox rest (polled u)) := run_poll_reads (hs.applyFresh h) rest

/-- A fresh TUNE writes the period, then the cap (R208). -/
theorem applyFresh_tune {word : Word} {s u : State} {per maxd : Byte}
    (hd : decodeCommand s.cfg.hasTune word = .tune per maxd) (h : applyFresh true word s = .next u) :
    u = writeCap maxd (writePeriod per s) := by
  have htune : s.cfg.hasTune = true := hasTune_of_decodeCommand_tune hd
  obtain ⟨-, hx⟩ | ⟨hfresh, -⟩ := applyFresh_next h
  · rw [hd] at hx
    simpa [exec, execTune, htune] using hx.symm
  · cases hfresh

/-- `POLL.apply.period`, `POLL.apply.cap`, `POLL.rdfb`, `POLL.rdref`. -/
theorem run_poll_tune {word : Word} {s u : State} {per maxd : Byte} (hs : AtRest s)
    (hturn : pollTurn s = true) (hd : decodeCommand s.cfg.hasTune word = .tune per maxd)
    (h : applyFresh true word s = .next u) (rest : List Input) :
    core.run 4 (setInbox (.pollApplyPeriod word :: .pollApplyCap :: .pollRdfb :: .pollRdref :: rest) s) =
      .next (setInbox rest (polled u)) := by
  have hperiod : AtRest (setPolling (.periodWritten maxd) (writePeriod per s)) :=
    ⟨hs.cfg_wf, hs.running, hs.idle, hs.quiet⟩
  have hu : u = writeCap maxd (writePeriod per s) := applyFresh_tune hd h
  calc core.run 4
        (setInbox (.pollApplyPeriod word :: .pollApplyCap :: .pollRdfb :: .pollRdref :: rest) s)
      = core.run 3 (setInbox (.pollApplyCap :: .pollRdfb :: .pollRdref :: rest)
          (setPolling (.periodWritten maxd) (writePeriod per s))) :=
        hs.run_succ (microApplyPeriod_eq hturn hd)
    _ = core.run 2 (setInbox (.pollRdfb :: .pollRdref :: rest) (setPolling .applied u)) :=
        hperiod.run_succ (by rw [hu]; rfl)
    _ = .next (setInbox rest (polled u)) := run_poll_reads (hs.applyFresh h) rest

/-- Settles O17: the event and both runs of micro-steps answer the state after the two reads of what the first
micro-step answers. -/
theorem pollIsItsMicroSteps : Obligations.PollIsItsMicroSteps := by
  intro w fresh word rest s hw hturn hpending hd
  obtain ⟨hboot, hcontrol, -, -⟩ := (pollTurn_iff s).mp hturn
  have hs : AtRest s := ⟨hw, hboot, hcontrol, hpending⟩
  obtain ⟨u, hu, -⟩ := applyFresh_total fresh word s
  refine ⟨setInbox rest (polled u), ?_, rfl, run_poll hs hturn hu rest, ?_⟩
  · calc step (setInbox (.event w :: rest) s)
        = runInput (.event w) (setInbox rest s) := hs.step_head _ _
      _ = exec (.poll fresh word) (setInbox rest s) := runInput_event hd
      _ = .next (setInbox rest (polled u)) := exec_poll (applyFresh_setInbox rest hu) hturn
  · rintro rfl ⟨per, maxd, htune⟩
    exact run_poll_tune hs hturn htune hu rest

end Sys2Proof.Machine
end

section
/-! The filter as a function on the integers (spec/40_control_law.md R103, R104): its range, its fixed points, and
where its iterates under a constant input end. -/

namespace Sys2Proof.Machine

open Sys2Proof

/-! ## The range -/

/-- `b << K` is an upper barrier for every sample of at most `b`. -/
theorem iir_le_scaled {c : Config} {f : Word} {r : Sample} {b : Int} (hk : c.k ≤ 6)
    (hr : (r.toNat : Int) ≤ b) (hf : f.toInt ≤ b * 2 ^ c.k) : (iir c f r).toInt ≤ b * 2 ^ c.k := by
  have hP : (1 : Int) ≤ 2 ^ c.k := one_le_pow₀ (by norm_num)
  have hmono := sub_ediv_mono hP hf
  rw [Int.mul_ediv_cancel b (by omega)] at hmono
  rw [iir_toInt c f r hk]
  omega

/-- `b << K` is a lower barrier for every sample of at least `b`. -/
theorem scaled_le_iir {c : Config} {f : Word} {r : Sample} {b : Int} (hk : c.k ≤ 6)
    (hr : b ≤ r.toNat) (hf : b * 2 ^ c.k ≤ f.toInt) : b * 2 ^ c.k ≤ (iir c f r).toInt := by
  have hP : (1 : Int) ≤ 2 ^ c.k := one_le_pow₀ (by norm_num)
  have hmono := sub_ediv_mono hP hf
  rw [Int.mul_ediv_cancel b (by omega)] at hmono
  rw [iir_toInt c f r hk]
  omega

/-- Settles O26: 0 and the scaled bound are barriers. -/
theorem filterStaysInRange : Obligations.FilterStaysInRange := by
  intro c f r bound hk _ hr hlo hhi
  have hlow := scaled_le_iir (b := 0) hk (by omega : (0 : Int) ≤ r.toNat) (by rwa [zero_mul])
  rw [zero_mul] at hlow
  exact ⟨hlow, iir_le_scaled hk (by exact_mod_cast hr) hhi⟩

/-! ## The fixed points -/

/-- The filter rests where its post-shift value is the sample. -/
theorem iir_eq_self_iff {c : Config} {f : Word} {r : Sample} (hk : c.k ≤ 6) :
    iir c f r = f ↔ f.toInt / 2 ^ c.k = r.toNat := by
  rw [← BitVec.toInt_inj, iir_toInt c f r hk]
  omega

/-- Settles O27: the inputs of a floored quotient form an interval. -/
theorem filterFixedPointsAreAnInterval : Obligations.FilterFixedPointsAreAnInterval := by
  intro c f r hk
  rw [iir_eq_self_iff hk, Int.ediv_eq_iff_of_pos (by positivity), Int.le_sub_one_iff]

/-! ## Convergence -/

/-- A function that lowers a measure wherever it moves comes to rest. -/
theorem eventually_fixed_of_measure {α : Type} {g : α → α} (μ : α → Nat)
    (hμ : ∀ x, g x ≠ x → μ (g x) < μ x) (x : α) : ∃ n : Nat, ∀ m ≥ n, g (g^[m] x) = g^[m] x := by
  by_cases hfix : g x = x
  · refine ⟨0, fun m _ => ?_⟩
    rw [Function.iterate_fixed hfix, hfix]
  · obtain ⟨n, hn⟩ := eventually_fixed_of_measure μ hμ (g x)
    refine ⟨n + 1, fun m hm => ?_⟩
    obtain ⟨m, rfl⟩ := Nat.exists_eq_add_of_le' (Nat.one_le_of_lt hm)
    exact hn m (by omega)
termination_by μ x
decreasing_by exact hμ x hfix

/-- A filter that moves comes closer to `r << K`, and does not pass it (R104 (c), (d)). -/
theorem iir_approaches {c : Config} {f : Word} {r : Sample} (hk : c.k ≤ 6) (hmove : iir c f r ≠ f) :
    ((iir c f r).toInt - r.toNat * 2 ^ c.k).natAbs < (f.toInt - r.toNat * 2 ^ c.k).natAbs := by
  have hP : (0 : Int) < 2 ^ c.k := by positivity
  have hne : f.toInt / 2 ^ c.k ≠ r.toNat := fun h => hmove ((iir_eq_self_iff hk).mpr h)
  have hstep := iir_toInt c f r hk
  obtain hbelow | habove := le_total f.toInt (r.toNat * 2 ^ c.k)
  · have hbarrier := iir_le_scaled hk le_rfl hbelow
    have hquot : f.toInt / 2 ^ c.k ≤ r.toNat := Int.ediv_le_of_le_mul hP hbelow
    omega
  · have hbarrier := scaled_le_iir hk le_rfl habove
    have hquot : r.toNat ≤ f.toInt / 2 ^ c.k := Int.le_ediv_of_mul_le hP habove
    omega

/-- Settles O28: the iterates come to rest in the interval of fixed points; from below, the barrier leaves only its
lower end. -/
theorem filterConvergesUnderConstantInput : Obligations.FilterConvergesUnderConstantInput := by
  intro c r f hk
  obtain ⟨n, hrest⟩ := eventually_fixed_of_measure (g := fun x => iir c x r)
    (fun x => (x.toInt - r.toNat * 2 ^ c.k).natAbs) (fun _ => iir_approaches hk) f
  have hinterval := fun m hm => (filterFixedPointsAreAnInterval c _ r hk).mp (hrest m hm)
  refine ⟨fun hbelow => ?_, fun _ => ⟨n, fun m hm => ?_⟩⟩
  · have hbarrier : ∀ m, ((fun x => iir c x r)^[m] f).toInt ≤ (r.toNat : Int) * 2 ^ c.k :=
      Function.Iterate.rec (fun x : Word => x.toInt ≤ (r.toNat : Int) * 2 ^ c.k)
        hbelow (fun _ => iir_le_scaled hk le_rfl)
    exact ⟨hbarrier, n, fun m hm => le_antisymm (hbarrier m) (hinterval m hm).1⟩
  · obtain ⟨hlo, hhi⟩ := hinterval m hm
    exact ⟨hlo, by omega⟩

end Sys2Proof.Machine
end

section
/-! SAMPLE (spec/40_control_law.md R100, R107, R111 to R114): the state it answers, the ranges of the integral and the
duty, and what it depends on. -/

namespace Sys2Proof.Machine

open Sys2Proof

/-! ## The ranges -/

/-- Settles O36: the limit is not negative, and the duty is clamped between 0 and it. -/
theorem dutyStaysWithinMaxDuty : Obligations.DutyStaysWithinMaxDuty := by
  intro c k period dutyCap fbRaw refRaw
  generalize hk' : controlLaw c k period dutyCap fbRaw refRaw = k'
  obtain ⟨-, -, -, hmax, -, -, -, hduty⟩ := controlLaw_registers hk'
  have hlimit : 0 ≤ k'.maxDuty.toInt := hmax ▸ (maxDutyOf_range c _ period dutyCap).1
  rw [hduty, clamp_toInt]
  exact clampInt_bounds hlimit

theorem clampInt_of_lt {x lo hi : Int} (h : x < lo) : clampInt x lo hi = lo := if_pos h

theorem clampInt_of_gt {x lo hi : Int} (hle : lo ≤ hi) (h : hi < x) : clampInt x lo hi = hi := by
  rw [clampInt, if_neg (by omega), if_pos h]

theorem clampInt_of_mem {x lo hi : Int} (hlo : lo ≤ x) (hhi : x ≤ hi) : clampInt x lo hi = x := by
  rw [clampInt, if_neg (by omega), if_neg (by omega)]

/-- Settles O37: the next integral is the clamp of the exact sum, read above, below and within the window. -/
theorem integralSaturatesAtItsWindow : Obligations.IntegralSaturatesAtItsWindow := by
  intro c integral error hw hi hlo hhi
  have hwindow := nextIntegral_inIntegralWindow hw hi ⟨hlo, hhi⟩
  have hends := hwindow.1.trans hwindow.2
  rw [nextIntegral_toInt hw hi ⟨hlo, hhi⟩]
  exact ⟨hwindow, clampInt_of_gt hends, clampInt_of_lt, clampInt_of_mem⟩

/-! ## A SAMPLE that is taken -/

/-- The state after a whole SAMPLE: interrupt, control cycle, return (R100, R112, R246). -/
def sampled (fbRaw refRaw : Sample) (s : State) : State :=
  returnFromInterrupt (runControlLaw fbRaw refRaw (takeInterrupt fbRaw refRaw s))

theorem exec_sample {fbRaw refRaw : Sample} {s : State} (h : sampleMayStart s = true) :
    exec (.sample fbRaw refRaw) s = .next (sampled fbRaw refRaw s) :=
  if_pos h

@[simp] theorem sampled_controller (fbRaw refRaw : Sample) (s : State) :
    (sampled fbRaw refRaw s).controller = controlLaw s.cfg s.controller s.period s.dutyCap fbRaw refRaw :=
  rfl

@[simp] theorem sampled_outputs (fbRaw refRaw : Sample) (s : State) :
    (sampled fbRaw refRaw s).outputs =
      s.outputs ++ [.switchDuty (dutyPort (sampled fbRaw refRaw s).controller), .wdtPet] :=
  List.append_assoc _ _ _

/-- Everything a SAMPLE changes: ControllerState but the target, `sample_pending`, the timer's compare buffer, the
watchdog's clock, the pairs seen, and two outputs. -/
theorem sampled_frame {fbRaw refRaw : Sample} {s : State} (h : s.control = .idle) :
    sampled fbRaw refRaw s = { s with
      controller := { (sampled fbRaw refRaw s).controller with target := s.controller.target }
      samplePending := false
      switchCompare := dutyPort (sampled fbRaw refRaw s).controller
      sincePet := 0
      results := []
      outputs := s.outputs ++
        [.switchDuty (dutyPort (sampled fbRaw refRaw s).controller), .wdtPet] } := by
  rw [← sampled_outputs, h]
  rfl

/-- Settles O34: the state after the interrupt, the control cycle and the return. -/
theorem sampleRunsTheControlCycle : Obligations.SampleRunsTheControlCycle := by
  intro fbRaw refRaw s hstart
  obtain ⟨-, hidle⟩ := (sampleMayStart_iff s).mp hstart
  obtain ⟨-, hff, hfr, hmax, hct, herr, hint, hduty⟩ :=
    controlLaw_registers (sampled_controller fbRaw refRaw s).symm
  exact ⟨sampled fbRaw refRaw s, exec_sample hstart, hff, hfr, hmax, hct, herr, hint, hduty, rfl,
    sampled_frame hidle⟩

/-- R113: the control cycle reads ControllerState by five registers alone. -/
theorem controlLaw_congr {k k' : ControllerState} (hff : k'.filteredFeedback = k.filteredFeedback)
    (hfr : k'.filteredReference = k.filteredReference) (hint : k'.integral = k.integral)
    (herr : k'.previousError = k.previousError) (htarget : k'.target = k.target)
    (c : Config) (period : Half) (dutyCap : Byte) (fbRaw refRaw : Sample) :
    controlLaw c k' period dutyCap fbRaw refRaw = controlLaw c k period dutyCap fbRaw refRaw := by
  simp only [controlLaw, hff, hfr, hint, herr, htarget]

/-- Settles O38: equal inputs give equal control cycles, and the outputs are read off the cycle. -/
theorem sampleDependsOnlyOnItsInputs : Obligations.SampleDependsOnlyOnItsInputs := by
  intro fbRaw refRaw s s' hstart hstart' hcfg hff hfr hint herr htarget hperiod hcap
  have hcontroller : (sampled fbRaw refRaw s').controller = (sampled fbRaw refRaw s).controller := by
    rw [sampled_controller, sampled_controller, hcfg, hperiod, hcap,
      controlLaw_congr hff hfr hint herr htarget]
  exact ⟨_, _, _, exec_sample hstart, exec_sample hstart', hcontroller, sampled_outputs fbRaw refRaw s,
    hcontroller ▸ sampled_outputs fbRaw refRaw s'⟩

/-- Settles O40: the control cycle on the example's values, computed. -/
theorem workedSampleExample : Obligations.WorkedSampleExample :=
  ⟨_, exec_sample rfl, by decide, by decide⟩

/-! ## The watchdog pet -/

theorem command_outputs {i : Instr} {s t : State} (hi : i.isCommand = true) (h : exec i s = .next t) :
    t.outputs = s.outputs := by
  obtain ⟨u, hu, hframe⟩ := exec_command i hi s
  obtain rfl : u = t := by simpa [hu] using h
  rw [hframe]

theorem applyFresh_outputs {fresh : Bool} {w : Word} {s t : State} (h : applyFresh fresh w s = .next t) :
    t.outputs = s.outputs := by
  obtain ⟨-, hx⟩ | ⟨-, rfl⟩ := applyFresh_next h
  · exact command_outputs (decodeCommand_isCommand _ _) hx
  · rfl

theorem execPoll_pets {fresh : Bool} {w : Word} {s t : State} (h : execPoll fresh w s = .next t) :
    t.outputs.count .wdtPet = s.outputs.count .wdtPet := by
  obtain ⟨-, u, hu, rfl⟩ := execPoll_next h
  simp [applyFresh_outputs hu]

theorem execFade_pets {ts : Nat} {s t : State} (h : execFade ts s = .next t) :
    t.outputs.count .wdtPet = s.outputs.count .wdtPet := by
  obtain ⟨-, ⟨-, rfl⟩ | ⟨-, rfl⟩⟩ := execFade_next h <;> simp

theorem execSample_pets {fbRaw refRaw : Sample} {s t : State} (h : execSample fbRaw refRaw s = .next t) :
    t.outputs.count .wdtPet =
      s.outputs.count .wdtPet + if sampleMayStart s = true then 1 else 0 := by
  obtain ⟨hstart, rfl⟩ | ⟨hstart, rfl⟩ := execSample_next h <;> simp [hstart]

/-- Settles O48, by the sort of the instruction: only the return from a SAMPLE's interrupt pets. -/
theorem onlySamplePetsTheWatchdog : Obligations.OnlySamplePetsTheWatchdog := by
  intro i s t h
  cases i
  case sample fbRaw refRaw => exact execSample_pets h
  case poll fresh w => exact execPoll_pets h
  case fade ts => exact execFade_pets h
  case reset =>
    cases h
    simp [resetOutputs]
  all_goals exact congrArg _ (command_outputs rfl h)

end Sys2Proof.Machine
end

section
/-! Supply-voltage compensation (spec/41_compensation.md): the software multiply and its iteration count, the duty limit
with its golden values, and the compensated target. -/

namespace Sys2Proof.Machine

open Sys2Proof

/-! ## The software multiply -/

/-- Settles O29: the loop invariant of the shift-and-add loop, read at its end. -/
theorem softwareMultiplyIsExact : Obligations.SoftwareMultiplyIsExact := swmul_toNat

@[simp] theorem bitlen_zero : bitlen 0 = 0 := rfl

/-- Dropping the lowest bit shortens a non-zero number by one bit. -/
theorem bitlen_eq_bitlen_half_succ {n : Nat} (h : n ≠ 0) : bitlen n = bitlen (n / 2) + 1 := by
  rw [bitlen, bitlen, if_neg h, Nat.log2_def]
  split_ifs <;> omega

theorem bitlen_le {n k : Nat} (h : n < 2 ^ k) : bitlen n ≤ k := by
  unfold bitlen
  split_ifs with hn
  · exact k.zero_le
  · exact (Nat.log2_lt hn).2 h

/-- The loop of `SWMUL` counts one iteration for each bit of what is left of the smaller operand (R147). -/
theorem swmulLoop_snd (fuel : Nat) (s : Half) (l acc : Word) (n : Nat) (hs : s.toNat < 2 ^ fuel) :
    (swmulLoop fuel s l acc n).2 = n + bitlen s.toNat := by
  induction fuel generalizing s l acc n with
  | zero =>
    have hzero : s.toNat = 0 := by omega
    simp [swmulLoop, hzero]
  | succ fuel ih =>
    rw [swmulLoop]
    split
    · next hzero => simp [hzero]
    · next hne =>
      have hhalf : (s >>> 1).toNat = s.toNat / 2 := by
        rw [BitVec.toNat_ushiftRight, Nat.shiftRight_eq_div_pow, pow_one]
      have hpos : s.toNat ≠ 0 := fun h => hne (BitVec.eq_of_toNat_eq h)
      rw [ih _ _ _ _ (by omega), hhalf, bitlen_eq_bitlen_half_succ hpos]
      omega

/-- R147: the loop runs over the bits of the smaller operand. -/
theorem swmulIterations_eq (x y : Half) : swmulIterations x y = bitlen (min x.toNat y.toNat) := by
  rw [swmulIterations, swmulRun]
  split_ifs with hle <;> simp only [BitVec.ule, decide_eq_true_eq] at hle
  · rw [swmulLoop_snd _ _ _ _ _ x.isLt, Nat.zero_add, min_eq_left hle]
  · rw [swmulLoop_snd _ _ _ _ _ y.isLt, Nat.zero_add, min_eq_right (by omega)]

/-- Settles O30: one iteration for each bit of the smaller operand, which has 16 at most. -/
theorem softwareMultiplyIterationCount : Obligations.SoftwareMultiplyIterationCount := by
  intro x y
  have hmin : min x.toNat y.toNat < 2 ^ 16 := (min_le_left _ _).trans_lt x.isLt
  exact ⟨swmulIterations_eq x y, swmulIterations_eq x y ▸ bitlen_le hmin⟩

/-! ## The duty limit -/

/-- The clamp of R142 keeps `MaxDuty` in `[0, min(period, duty_cap)]`, whatever the reference. -/
theorem maxDutyOf_bounds (c : Config) (fr : Word) (period : Half) (dutyCap : Byte) :
    0 ≤ (maxDutyOf c fr period dutyCap).toInt ∧
      (maxDutyOf c fr period dutyCap).toInt ≤ min period.toNat dutyCap.toNat := by
  rw [maxDutyOf, clamp_toInt, dutyLimit_toInt, word_zero_toInt]
  exact clampInt_bounds (Int.natCast_nonneg _)

/-- Settles O31: the clamp gives the bounds, and on a reference in range the shift sum does not wrap. -/
theorem maxDutyIsTheClampedShiftSum : Obligations.MaxDutyIsTheClampedShiftSum := fun c fr period dutyCap =>
  ⟨maxDutyOf_bounds c fr period dutyCap, fun _ => maxDutyOf_toInt period dutyCap⟩

/-- `MaxDuty` is the shift sum where the clamp of R142 does not bind. -/
theorem maxDutyOf_eq_of_raw {c : Config} {fr v : Word} {period : Half} {dutyCap : Byte}
    (hraw : maxDutyRaw c (postShift c fr) = v) (hlo : 0 ≤ v.toInt)
    (hhi : v.toInt ≤ min period.toNat dutyCap.toNat) : maxDutyOf c fr period dutyCap = v := by
  apply BitVec.eq_of_toInt_eq
  rw [maxDutyOf, clamp_toInt, dutyLimit_toInt, word_zero_toInt, hraw]
  exact clampInt_of_mem hlo hhi

/-- R143: the shift sums of the golden inputs. -/
theorem maxDutyRaw_golden {c : Config} (ha : c.mdA = 2) (hb : c.mdB = 6) (hc : c.mdC = 7) :
    maxDutyRaw c 0x175 = 86 ∧ maxDutyRaw c 0xF0 = 56 := by
  rw [maxDutyRaw, maxDutyRaw, ha, hb, hc]
  decide

/-- Settles O32: a limit of at least 86 does not bind on either golden shift sum. -/
theorem maxDutyGoldenValues : Obligations.MaxDutyGoldenValues := by
  intro c fr period dutyCap _ ha hb hc hlimit
  obtain ⟨hhigh, hlow⟩ := maxDutyRaw_golden ha hb hc
  have hvalues : (86 : Word).toInt = 86 ∧ (56 : Word).toInt = 56 := by decide
  exact ⟨fun hv => maxDutyOf_eq_of_raw (hv ▸ hhigh) (by omega) (by omega),
    fun hv => maxDutyOf_eq_of_raw (hv ▸ hlow) (by omega) (by omega)⟩

/-! ## The compensated target -/

/-- Settles O33: under condition W the exact product's shift sum is a word from 0 to `CTMAX`. -/
theorem compTargetIsTheExactShiftSum : Obligations.CompTargetIsTheExactShiftSum := by
  intro c fr target hw hfr htarget
  obtain ⟨hexact, hle⟩ := compTarget_exact hw hfr htarget
  rw [hexact]
  exact ⟨rfl, Int.natCast_nonneg _, Int.ofNat_le.2 hle⟩

end Sys2Proof.Machine
end

section
/-! Every step keeps the digit bus's transition guard (spec/42_fade.md R176). Only FADE's two halves and RESET write
the bus; everything else is quiet on it, and the observer sees no difference. -/

namespace Sys2Proof.Machine

open Sys2Proof

/-! ## The observer along a list of output events -/

@[simp] theorem busAfter_append (gap : Nat) (v : BusView) (xs ys : List Output) :
    busAfter gap v (xs ++ ys) = busAfter gap (busAfter gap v xs) ys := by
  induction xs generalizing v with
  | nil => rfl
  | cons o os ih => exact ih _

@[simp] theorem busGuarded_append (gap : Nat) (v : BusView) (xs ys : List Output) :
    busGuarded gap v (xs ++ ys) = (busGuarded gap v xs && busGuarded gap (busAfter gap v xs) ys) := by
  induction xs generalizing v with
  | nil => rfl
  | cons o os ih => simp [busGuarded, busAfter, ih, Bool.and_assoc]

/-- The output event is neither a write of the digit bus nor FADE's hold. -/
def offBus (o : Output) : Bool :=
  match o with
  | .digitBus _ => false
  | .gapHold _ => false
  | _ => true

theorem observe_offBus {o : Output} (h : offBus o = true) (gap : Nat) (v : BusView) :
    v.observe gap o = v ∧ v.allows o = true := by
  cases o
  case digitBus m => cases h
  case gapHold n => cases h
  all_goals exact ⟨rfl, rfl⟩

/-- Output events off the bus leave the observer's view alone and cannot break the guard. -/
theorem bus_of_all_offBus {os : List Output} (h : ∀ o ∈ os, offBus o = true) (gap : Nat) (v : BusView) :
    busAfter gap v os = v ∧ busGuarded gap v os = true := by
  induction os with
  | nil => exact ⟨rfl, rfl⟩
  | cons o os ih =>
    obtain ⟨hview, hallows⟩ := observe_offBus (h o List.mem_cons_self) gap v
    obtain ⟨hafter, hguarded⟩ := ih fun o' ho' => h o' (List.mem_cons_of_mem o ho')
    simp [busAfter, busGuarded, hview, hallows, hafter, hguarded]

/-- The observer's view after the output events of `s`. -/
def busSeen (s : State) : BusView := busAfter s.cfg.gapHold BusView.start s.outputs

section

variable {s t : State}

/-- The guard after more output events is the guard on those events, from the view that the earlier ones leave. -/
theorem GuardInv.append {new : List Output} (h : GuardInv s) (hcfg : t.cfg = s.cfg)
    (hout : t.outputs = s.outputs ++ new)
    (hguard : busGuarded s.cfg.gapHold (busSeen s) new = true)
    (hmask : (busAfter s.cfg.gapHold (busSeen s) new).mask = t.outMask)
    (hgap : ∀ m, t.polling = .holding m →
      t.outMask = 0 ∧ (busAfter s.cfg.gapHold (busSeen s) new).gapHeld = true) : GuardInv t where
  guarded := by
    rw [hcfg, hout, busGuarded_append, h.guarded]
    exact hguard
  bus_seen := by
    rw [hcfg, hout, busAfter_append]
    exact hmask
  gap_asked := by
    rw [hcfg, hout, busAfter_append]
    exact hgap

/-! ## What is quiet on the bus -/

/-- From `s` to `t` nothing happens on the digit bus: no write, no hold, and no gap begins. -/
structure QuietOnBus (s t : State) : Prop where
  cfg : t.cfg = s.cfg
  outMask : t.outMask = s.outMask
  holding : ∀ m, t.polling = .holding m → s.polling = .holding m
  outputs : ∃ new, t.outputs = s.outputs ++ new ∧ ∀ o ∈ new, offBus o = true

theorem QuietOnBus.trans {u : State} (hst : QuietOnBus s t) (htu : QuietOnBus t u) : QuietOnBus s u := by
  obtain ⟨new, hnew, hoff⟩ := hst.outputs
  obtain ⟨new', hnew', hoff'⟩ := htu.outputs
  exact
    { cfg := htu.cfg.trans hst.cfg
      outMask := htu.outMask.trans hst.outMask
      holding := fun m hm => hst.holding m (htu.holding m hm)
      outputs := ⟨new ++ new', by rw [hnew', hnew, List.append_assoc], by
        simpa [or_imp, forall_and] using ⟨hoff, hoff'⟩⟩ }

/-- One output event off the bus. -/
theorem quietOnBus_of_event {o : Output} (hcfg : t.cfg = s.cfg) (hmask : t.outMask = s.outMask)
    (hhold : ∀ m, t.polling = .holding m → s.polling = .holding m) (hout : t.outputs = s.outputs ++ [o])
    (hoff : offBus o = true) : QuietOnBus s t :=
  ⟨hcfg, hmask, hhold, [o], hout, by simpa using hoff⟩

/-- No output event. -/
theorem quietOnBus_of_same (hcfg : t.cfg = s.cfg) (hmask : t.outMask = s.outMask)
    (hhold : ∀ m, t.polling = .holding m → s.polling = .holding m) (hout : t.outputs = s.outputs) :
    QuietOnBus s t :=
  ⟨hcfg, hmask, hhold, [], by rw [hout, List.append_nil], by simp⟩

theorem QuietOnBus.refl (s : State) : QuietOnBus s s := quietOnBus_of_same rfl rfl (fun _ => id) rfl

theorem command_quietOnBus {i : Instr} (hi : i.isCommand = true) (h : exec i s = .next t) :
    QuietOnBus s t := by
  obtain ⟨u, hu, hframe⟩ := exec_command i hi s
  obtain rfl : u = t := by simpa [hu] using h
  rw [hframe]
  exact quietOnBus_of_same rfl rfl (fun _ => id) rfl

theorem applyFresh_quietOnBus {fresh : Bool} {w : Word} (h : applyFresh fresh w s = .next t) :
    QuietOnBus s t := by
  obtain ⟨-, hx⟩ | ⟨-, rfl⟩ := applyFresh_next h
  · exact command_quietOnBus (decodeCommand_isCommand _ _) hx
  · exact .refl _

theorem setPolling_quietOnBus {p : PollingProgress} (hp : ∀ m, p ≠ .holding m) (s : State) :
    QuietOnBus s (setPolling p s) :=
  quietOnBus_of_same rfl rfl (fun m hm => absurd hm (hp m)) rfl

theorem publishStatus_quietOnBus (fb : Word) (s : State) : QuietOnBus s (publishStatus fb s) :=
  quietOnBus_of_event rfl rfl (fun _ hm => nomatch hm) rfl rfl

theorem runControlLaw_quietOnBus (fb ref : Sample) (s : State) : QuietOnBus s (runControlLaw fb ref s) :=
  quietOnBus_of_event rfl rfl (fun _ => id) rfl rfl

theorem returnFromInterrupt_quietOnBus (s : State) : QuietOnBus s (returnFromInterrupt s) :=
  quietOnBus_of_event rfl rfl (fun _ => id) rfl rfl

theorem execSample_quietOnBus {fb ref : Sample} (h : execSample fb ref s = .next t) : QuietOnBus s t := by
  obtain ⟨-, rfl⟩ | ⟨-, rfl⟩ := execSample_next h
  · have htaken : QuietOnBus s (takeInterrupt fb ref s) := quietOnBus_of_same rfl rfl (fun _ => id) rfl
    exact (htaken.trans (runControlLaw_quietOnBus fb ref _)).trans (returnFromInterrupt_quietOnBus _)
  · exact quietOnBus_of_same rfl rfl (fun _ => id) rfl

theorem execPoll_quietOnBus {fresh : Bool} {w : Word} (h : execPoll fresh w s = .next t) :
    QuietOnBus s t := by
  obtain ⟨-, u, hu, rfl⟩ := execPoll_next h
  exact ((applyFresh_quietOnBus hu).trans (setPolling_quietOnBus (by simp) u)).trans
    (publishStatus_quietOnBus _ _)

theorem bootStep_quietOnBus (s : State) : QuietOnBus s (bootStep s) := by
  obtain ⟨-, h⟩ | ⟨-, h⟩ | ⟨-, h⟩ | ⟨-, h⟩ | ⟨-, h⟩ := bootStep_cases s <;> rw [h]
  case inr.inr.inl => exact quietOnBus_of_event rfl rfl (fun _ => id) rfl rfl
  all_goals exact quietOnBus_of_same rfl rfl (fun _ => id) rfl

theorem ownWork_quietOnBus (h : ownWork s = some t) : QuietOnBus s t := by
  obtain ⟨fb, ref, -, rfl⟩ | ⟨-, rfl⟩ | ⟨-, -, rfl⟩ | ⟨-, -, -, rfl⟩ := ownWork_some h
  · exact runControlLaw_quietOnBus fb ref s
  · exact returnFromInterrupt_quietOnBus s
  · exact bootStep_quietOnBus s
  · exact quietOnBus_of_same rfl rfl (fun _ => id) rfl

theorem conversionCompletes_quietOnBus (fb ref : Sample) (s : State) :
    QuietOnBus s (conversionCompletes fb ref s) := by
  obtain ⟨-, h⟩ | ⟨-, h⟩ := conversionCompletes_cases fb ref s <;> rw [h] <;>
    exact quietOnBus_of_same rfl rfl (fun _ => id) rfl

/-! ## The guard: where the bus is quiet, and where it is written -/

theorem GuardInv.of_quietOnBus (h : GuardInv s) (hq : QuietOnBus s t) : GuardInv t := by
  obtain ⟨new, hout, hoff⟩ := hq.outputs
  obtain ⟨hafter, hguarded⟩ := bus_of_all_offBus hoff s.cfg.gapHold (busSeen s)
  refine h.append hq.cfg hout hguarded ?_ fun m hm => ?_
  · rw [hafter, hq.outMask]
    exact h.bus_seen
  · rw [hafter, hq.outMask]
    exact h.gap_asked m (hq.holding m hm)

/-- RESET writes the bus once, with the all-off mask, from any view (R270). -/
theorem resetOperation_keeps_guard (h : GuardInv s) : GuardInv (resetOperation s) :=
  h.append rfl rfl rfl rfl fun _ hm => nomatch hm

/-- The first half of a mask change needs no guard: it writes all-off and asks for the whole gap (R175). -/
theorem startGap_keeps_guard (h : GuardInv s) (m : Half) : GuardInv (startGap m s) :=
  h.append rfl rfl rfl rfl fun _ _ => ⟨rfl, by simp [busAfter, BusView.observe]⟩

/-- The second half writes a mask from the gap, which the observer has seen all-off and held (R176 (a)). -/
theorem endGap_keeps_guard {n : Half} (h : GuardInv s) (hp : s.polling = .holding n) (m : Half) :
    GuardInv (endGap m s) := by
  obtain ⟨hoff, hheld⟩ := h.gap_asked n hp
  have hmask : (busSeen s).mask = 0 := h.bus_seen.trans hoff
  have hgap : (busSeen s).gapHeld = true := hheld
  exact h.append rfl rfl (by simp [busGuarded, BusView.allows, hmask, hgap]) rfl fun _ hm => nomatch hm

theorem clockTick_keeps_guard (h : GuardInv s) : GuardInv (clockTick s) := by
  obtain ⟨-, hs⟩ | ⟨-, -, hs⟩ | ⟨-, -, hs⟩ := clockTick_cases s <;> rw [hs]
  · exact h
  · exact resetOperation_keeps_guard h
  · exact h.of_quietOnBus (quietOnBus_of_same rfl rfl (fun _ => id) rfl)

theorem execFade_keeps_guard {ts : Nat} (h : GuardInv s) (hx : execFade ts s = .next t) : GuardInv t := by
  obtain ⟨-, ⟨-, rfl⟩ | ⟨-, rfl⟩⟩ := execFade_next hx
  · exact h.of_quietOnBus (quietOnBus_of_same rfl rfl (fun _ => id) rfl)
  · exact endGap_keeps_guard (startGap_keeps_guard h _) rfl _

theorem microFadeBegin_keeps_guard {ts : Nat} (h : GuardInv s) (hx : microFadeBegin ts s = .next t) :
    GuardInv t := by
  obtain ⟨-, -, ⟨-, rfl⟩ | ⟨-, rfl⟩⟩ := microFadeBegin_next hx
  · exact h.of_quietOnBus (quietOnBus_of_same rfl rfl (fun _ => id) rfl)
  · exact startGap_keeps_guard h _

theorem exec_keeps_guard {i : Instr} (h : GuardInv s) (hx : exec i s = .next t) : GuardInv t := by
  cases i
  case sample fb ref => exact h.of_quietOnBus (execSample_quietOnBus hx)
  case poll fresh w => exact h.of_quietOnBus (execPoll_quietOnBus hx)
  case fade ts => exact execFade_keeps_guard h hx
  case reset =>
    cases hx
    exact resetOperation_keeps_guard h
  all_goals exact h.of_quietOnBus (command_quietOnBus rfl hx)

theorem runInput_keeps_guard {inp : Input} (h : GuardInv s) (hx : runInput inp s = .next t) : GuardInv t := by
  obtain ⟨w, i, -, -, hx⟩ | ⟨fresh, w, -, hx⟩ | ⟨w, -, hx⟩ | ⟨-, hx⟩ | ⟨-, hx⟩ | ⟨-, hx⟩ | ⟨ts, -, hx⟩ |
    ⟨-, hx⟩ | ⟨fb, ref, -, rfl⟩ | ⟨-, rfl⟩ | ⟨-, rfl⟩ | ⟨-, rfl⟩ := runInput_next hx
  · exact exec_keeps_guard h hx
  · obtain ⟨-, u, hu, rfl⟩ := microApply_next hx
    exact h.of_quietOnBus ((applyFresh_quietOnBus hu).trans (setPolling_quietOnBus (by simp) u))
  · obtain ⟨-, per, maxd, -, rfl⟩ := microApplyPeriod_next hx
    exact h.of_quietOnBus (quietOnBus_of_same rfl rfl (fun _ hm => nomatch hm) rfl)
  · obtain ⟨maxd, -, rfl⟩ := microApplyCap_next hx
    exact h.of_quietOnBus (quietOnBus_of_same rfl rfl (fun _ hm => nomatch hm) rfl)
  · obtain ⟨-, rfl⟩ := microRdfb_next hx
    exact h.of_quietOnBus (setPolling_quietOnBus (by simp) s)
  · obtain ⟨fb, -, rfl⟩ := microRdref_next hx
    exact h.of_quietOnBus (publishStatus_quietOnBus fb s)
  · exact microFadeBegin_keeps_guard h hx
  · obtain ⟨m, hp, rfl⟩ := microFadeEnd_next hx
    exact endGap_keeps_guard h hp m
  · exact h.of_quietOnBus (conversionCompletes_quietOnBus fb ref s)
  · exact h.of_quietOnBus (quietOnBus_of_same rfl rfl (fun _ => id) rfl)
  · exact clockTick_keeps_guard h
  · cases hwork : ownWork s with
    | none => exact h
    | some u => exact h.of_quietOnBus (ownWork_quietOnBus hwork)

end

/-- Settles O57: a step waits, does the core's own work, which is quiet on the bus, or runs one input. -/
theorem stepKeepsTheTransitionGuard : Obligations.StepKeepsTheTransitionGuard := by
  intro s t h hstep
  obtain ⟨-, ⟨-, -, rfl⟩ | hwork | ⟨inp, rest, -, -, hrun⟩⟩ := step_next hstep
  · exact h
  · exact h.of_quietOnBus (ownWork_quietOnBus hwork)
  · have htaken : QuietOnBus s (setInbox rest s) := quietOnBus_of_same rfl rfl (fun _ => id) rfl
    exact runInput_keeps_guard (h.of_quietOnBus htaken) hrun

end Sys2Proof.Machine
end

section
/-! The brightness levels of a FADE (spec/42_fade.md R170 to R174): the mask table, the dither phase, and which mask
each phase shows. -/

namespace Sys2Proof.Machine

open Sys2Proof

/-! ## The mask table -/

theorem oneHot_existsUnique {m : Half} (h : oneHot m = true) : ∃! n : Fin 16, m = 1#16 <<< n.val := by
  obtain ⟨n, hn, rfl⟩ := (oneHot_iff m).mp h
  have hinj : ∀ i j : Fin 16, 1#16 <<< i.val = 1#16 <<< j.val → j = i := by decide
  exact ⟨⟨n, hn⟩, rfl, hinj ⟨n, hn⟩⟩

/-- An entry of the table is one-hot (R171). -/
theorem digitMask_oneHot {c : Config} (hw : c.wf = true) {code : Nibble} (h1 : 1 ≤ code.toNat)
    (h12 : code.toNat ≤ 12) : oneHot (digitMask c code) = true := by
  obtain ⟨-, hhot, -⟩ := wf_masks hw
  exact hhot _ (List.mem_of_getElem? (digitMask_on hw h1 h12))

/-- Settles O24: the codes 1 to 12 are the places of the twelve distinct one-hot entries. -/
theorem digitMaskIsInjectiveAndOneHot : Obligations.DigitMaskIsInjectiveAndOneHot := by
  intro c hw
  refine ⟨fun _ => digitMask_off c, fun _ h1 h12 => oneHot_existsUnique (digitMask_oneHot hw h1 h12), ?_⟩
  intro a b ha1 ha12 hb1 hb12 hab
  obtain ⟨hlen, -, hnodup⟩ := wf_masks hw
  have hplace : c.digitMasks[a.toNat - 1]? = c.digitMasks[b.toNat - 1]? := by
    rw [digitMask_on hw ha1 ha12, digitMask_on hw hb1 hb12, hab]
  have hindex : a.toNat - 1 = b.toNat - 1 := (List.getElem?_inj (by omega) hnodup).mp hplace
  exact BitVec.eq_of_toNat_eq (by omega)

/-! ## The dither phase -/

theorem two_pow_split {r : Nat} (hr : r ≤ 7) : 2 ^ (8 - r) * 2 ^ r = 2 ^ 8 := by
  rw [← pow_add, Nat.sub_add_cancel (by omega)]

theorem topBits_lt (d : Byte) {r : Nat} (hr : r ≤ 7) : d.toNat / 2 ^ (8 - r) < 2 ^ r :=
  Nat.div_lt_of_lt_mul ((two_pow_split hr).symm ▸ d.isLt)

/-- A left rotation: the low bits go up by `r`, and the top `r` bits come back below them (R11, R172). -/
theorem rotl8_toNat_split (d : Byte) {r : Nat} (hr : r ≤ 7) :
    (rotl8 d r).toNat = d.toNat % 2 ^ (8 - r) * 2 ^ r + d.toNat / 2 ^ (8 - r) := by
  have hup : d.toNat * 2 ^ r % 2 ^ 8 = d.toNat % 2 ^ (8 - r) * 2 ^ r := by
    rw [← Nat.mul_mod_mul_right, two_pow_split hr]
  rw [rotl8, BitVec.toNat_rotateLeft, Nat.mod_eq_of_lt (show r < 8 by omega), Nat.shiftLeft_eq, hup,
    Nat.shiftRight_eq_div_pow, ← Nat.shiftLeft_eq, Nat.shiftLeft_add_eq_or_of_lt (topBits_lt d hr)]

theorem rotl8_toNat (d : Byte) {r : Nat} (hr : r ≤ 7) :
    (rotl8 d r).toNat = d.toNat * 2 ^ r % 256 + d.toNat / 2 ^ (8 - r) := by
  rw [rotl8_toNat_split d hr, show 256 = 2 ^ (8 - r) * 2 ^ r from (two_pow_split hr).symm,
    Nat.mul_mod_mul_right]

/-- A rotation loses no bit: the top bits are the remainder by `2 ^ r`, and the low ones the quotient. -/
theorem rotl8_injective {r : Nat} (hr : r ≤ 7) : Function.Injective (rotl8 · r) := by
  intro x y hxy
  have hnat : x.toNat % 2 ^ (8 - r) * 2 ^ r + x.toNat / 2 ^ (8 - r) =
      y.toNat % 2 ^ (8 - r) * 2 ^ r + y.toNat / 2 ^ (8 - r) := by
    rw [← rotl8_toNat_split x hr, ← rotl8_toNat_split y hr]
    exact congrArg BitVec.toNat hxy
  have htop : x.toNat / 2 ^ (8 - r) = y.toNat / 2 ^ (8 - r) := by
    have hmod := congrArg (· % 2 ^ r) hnat
    simpa only [Nat.mul_add_mod_self_right, Nat.mod_eq_of_lt (topBits_lt _ hr)] using hmod
  have hlow : x.toNat % 2 ^ (8 - r) = y.toNat % 2 ^ (8 - r) :=
    Nat.eq_of_mul_eq_mul_right (Nat.two_pow_pos r) (Nat.add_right_cancel (htop ▸ hnat))
  apply BitVec.eq_of_toNat_eq
  rw [← Nat.div_add_mod x.toNat (2 ^ (8 - r)), ← Nat.div_add_mod y.toNat (2 ^ (8 - r)), htop, hlow]

/-- A rotation reaches every byte, since it maps the 256 of them to as many. -/
theorem rotl8_surjective {r : Nat} (hr : r ≤ 7) : Function.Surjective (rotl8 · r) :=
  Finite.surjective_of_injective (rotl8_injective hr)

/-- The dither counter reads the timestamp from `TS_SHIFT` up (R172). -/
theorem phase_counter (c : Config) (n : Nat) :
    phase c (n * 2 ^ c.tsShift) = rotl8 (BitVec.ofNat 8 n) c.ditherRot := by
  rw [phase, Nat.mul_div_cancel _ (by positivity)]

/-- 256 consecutive numbers hold each residue modulo 256 once. -/
theorem existsUnique_ofNat_add (start : Nat) (d : Byte) :
    ∃! n, n < 256 ∧ BitVec.ofNat 8 (start + n) = d := by
  have hd := d.isLt
  refine ⟨(d.toNat + (256 - start % 256)) % 256, ⟨Nat.mod_lt _ (by omega), ?_⟩, ?_⟩
  · apply BitVec.eq_of_toNat_eq
    rw [BitVec.toNat_ofNat]
    omega
  · rintro n ⟨hn, rfl⟩
    rw [BitVec.toNat_ofNat]
    omega

/-- Settles O23: the rotation is a permutation of the bytes, so it visits each as often as the counter does. -/
theorem phaseVisitsEveryValueOncePerCycle : Obligations.PhaseVisitsEveryValueOncePerCycle := by
  intro c hrot
  constructor
  · rintro ts d rfl
    rw [phase, rotl8_toNat _ hrot, BitVec.toNat_ofNat]
  · intro start p
    obtain ⟨d, rfl⟩ := rotl8_surjective hrot p
    simp only [phase_counter, (rotl8_injective hrot).eq_iff]
    exact existsUnique_ofNat_add start d

/-! ## Which mask a phase shows -/

section

variable {f : FadeState} {p : Byte}

theorem fadeEval_disabled (h : f.fadeEnabled = false) : fadeEval f p = f.maskA := if_pos h

theorem fadeEval_below (h : p.toNat < f.threshold0.toNat) : fadeEval f p = f.maskA := by
  simp [fadeEval, BitVec.ult, h]

theorem fadeEval_between (hf : f.fadeEnabled = true) (h0 : f.threshold0.toNat ≤ p.toNat)
    (h1 : p.toNat < f.threshold1.toNat) : fadeEval f p = f.maskB := by
  simp [fadeEval, BitVec.ult, hf, h0.not_gt, h1]

theorem fadeEval_above (hf : f.fadeEnabled = true) (h0 : f.threshold0.toNat ≤ p.toNat)
    (h1 : f.threshold1.toNat ≤ p.toNat) : fadeEval f p = 0 := by
  simp [fadeEval, BitVec.ult, hf, h0.not_gt, h1.not_gt]

end

/-- Settles O21: where `t1` is below `t0`, a phase below `t0` is the first clause's and any other the third's. -/
theorem fadeEvalFollowsTheThresholds : Obligations.FadeEvalFollowsTheThresholds := by
  intro f p
  refine ⟨fadeEval_disabled, fun hf => ⟨fadeEval_below, fadeEval_between hf, fadeEval_above hf, ?_⟩⟩
  intro hcrossed
  obtain hlt | hge := Nat.lt_or_ge p.toNat f.threshold0.toNat
  · exact .inl (fadeEval_below hlt)
  · exact .inr (fadeEval_above hf hge (by omega))

/-! ## The shares of one cycle -/

/-- The numbers below `n` that lie from `lo` up and below `hi`. -/
theorem countP_range_interval (lo hi n : Nat) :
    (List.range n).countP (fun k => decide (lo ≤ k ∧ k < hi)) = min hi n - lo := by
  induction n with
  | zero => simp
  | succ n ih =>
    rw [List.range_succ, List.countP_append, ih, List.countP_singleton]
    simp only [decide_eq_true_eq]
    split <;> omega

/-- A level shown exactly at the phases from `lo` up and below `hi` has `hi - lo` of the 256. -/
theorem countP_fadeEval {f : FadeState} {m : Half} {lo hi : Nat} (hhi : hi ≤ 256)
    (h : ∀ p : Byte, fadeEval f p = m ↔ lo ≤ p.toNat ∧ p.toNat < hi) :
    (List.range 256).countP (fun n => fadeEval f (BitVec.ofNat 8 n) == m) = hi - lo := by
  rw [← min_eq_left hhi, ← countP_range_interval lo hi 256]
  refine List.countP_congr fun n hn => ?_
  have hlt : n % 256 = n := Nat.mod_eq_of_lt (List.mem_range.mp hn)
  simp [h, hlt]

/-- Settles O22: each of the three levels is shown exactly between two thresholds, as they are distinct masks. -/
theorem brightnessSharesOfOneCycle : Obligations.BrightnessSharesOfOneCycle := by
  intro f hf ht hab ha hb
  have hlevel : ∀ p : Byte,
      (fadeEval f p = f.maskA ↔ 0 ≤ p.toNat ∧ p.toNat < f.threshold0.toNat) ∧
      (fadeEval f p = f.maskB ↔ f.threshold0.toNat ≤ p.toNat ∧ p.toNat < f.threshold1.toNat) ∧
      (fadeEval f p = 0 ↔ f.threshold1.toNat ≤ p.toNat ∧ p.toNat < 256) := by
    intro p
    have hp := p.isLt
    obtain h0 | h0 := Nat.lt_or_ge p.toNat f.threshold0.toNat
    · rw [fadeEval_below h0]
      exact ⟨iff_of_true rfl (by omega), iff_of_false hab (by omega), iff_of_false ha (by omega)⟩
    obtain h1 | h1 := Nat.lt_or_ge p.toNat f.threshold1.toNat
    · rw [fadeEval_between hf h0 h1]
      exact ⟨iff_of_false hab.symm (by omega), iff_of_true rfl (by omega), iff_of_false hb (by omega)⟩
    · rw [fadeEval_above hf h0 h1]
      exact ⟨iff_of_false ha.symm (by omega), iff_of_false hb.symm (by omega), iff_of_true rfl ⟨h1, hp⟩⟩
  exact ⟨countP_fadeEval (by have := f.threshold0.isLt; omega) fun p => (hlevel p).1,
    countP_fadeEval (by have := f.threshold1.isLt; omega) fun p => (hlevel p).2.1,
    countP_fadeEval le_rfl fun p => (hlevel p).2.2⟩

end Sys2Proof.Machine
end

section
/-! FADE at its turn (spec/42_fade.md R175, R177, R178): the state it answers, and that a SAMPLE before it, after it or
during its hold makes no difference but the order of the output events. -/

namespace Sys2Proof.Machine

open Sys2Proof

/-! ## A FADE at its turn -/

/-- The state after a whole FADE at its turn (R175, R177). -/
def faded (ts : Nat) (s : State) : State :=
  if fadeMask ts s = s.fade.lastAppliedMask then keepMask s
  else endGap (fadeMask ts s) (startGap (fadeMask ts s) s)

/-- The output events of a FADE: none for the mask already applied, else all-off, the hold and the new mask. -/
def fadeOutputs (ts : Nat) (s : State) : List Output :=
  if fadeMask ts s = s.fade.lastAppliedMask then []
  else [.digitBus 0, .gapHold s.cfg.gapHold, .digitBus (fadeMask ts s)]

section

variable {ts : Nat} {s : State}

theorem exec_fade (h : fadeTurn s = true) : exec (.fade ts) s = .next (faded ts s) := by
  simp only [exec, execFade, if_pos h, faded]
  split_ifs <;> rfl

theorem faded_same (h : fadeMask ts s = s.fade.lastAppliedMask) : faded ts s = keepMask s := if_pos h

theorem faded_new (h : fadeMask ts s ≠ s.fade.lastAppliedMask) :
    faded ts s = endGap (fadeMask ts s) (startGap (fadeMask ts s) s) := if_neg h

theorem faded_outMask_new (h : fadeMask ts s ≠ s.fade.lastAppliedMask) :
    (faded ts s).outMask = fadeMask ts s := by
  rw [faded_new h, endGap_outMask]

theorem fadeOutputs_new (h : fadeMask ts s ≠ s.fade.lastAppliedMask) :
    fadeOutputs ts s = [.digitBus 0, .gapHold s.cfg.gapHold, .digitBus (fadeMask ts s)] := if_neg h

theorem faded_outputs (ts : Nat) (s : State) : (faded ts s).outputs = s.outputs ++ fadeOutputs ts s := by
  unfold faded fadeOutputs
  split_ifs <;> simp

end

/-- Settles O20: the two halves of a mask change set their fields, and `polling` is back between two steps. -/
theorem fadeAppliesTheMaskThroughTheGap : Obligations.FadeAppliesTheMaskThroughTheGap := by
  intro ts s hturn
  obtain ⟨-, -, -, hbetween⟩ := (fadeTurn_iff s).mp hturn
  constructor
  · intro hsame
    rw [exec_fade hturn, faded_same hsame, keepMask]
  · intro hnew
    refine ⟨_, exec_fade hturn, faded_outMask_new hnew, ?_⟩
    rw [faded_new hnew, endGap_outMask, endGap, startGap, List.append_assoc, hbetween]
    rfl

/-! ## With a SAMPLE before, after or inside it -/

/-- The output events of a SAMPLE that is taken: the duty write, then the pet (R111, R112). -/
def sampleOutputs (fbRaw refRaw : Sample) (s : State) : List Output :=
  [.switchDuty (dutyPort (sampled fbRaw refRaw s).controller), .wdtPet]

/-- The state after a mask change with a SAMPLE inside its hold (R175, R178). -/
def fadedAround (ts : Nat) (fbRaw refRaw : Sample) (s : State) : State :=
  endGap (fadeMask ts s) (sampled fbRaw refRaw (startGap (fadeMask ts s) s))

section

variable {ts : Nat} {fbRaw refRaw : Sample} {s : State}

/-- FADE's turn stays through a SAMPLE, which keeps the polling context's phase and progress. -/
theorem fadeTurn_sampled (h : fadeTurn s = true) : fadeTurn (sampled fbRaw refRaw s) = true := by
  obtain ⟨hboot, -, hphase, hpolling⟩ := (fadeTurn_iff s).mp h
  exact (fadeTurn_iff _).mpr ⟨hboot, rfl, hphase, hpolling⟩

theorem sampleMayStart_faded (h : fadeTurn s = true) : sampleMayStart (faded ts s) = true := by
  obtain ⟨hboot, hidle, -⟩ := (fadeTurn_iff s).mp h
  rw [sampleMayStart_iff, faded]
  split_ifs <;> exact ⟨hboot, hidle⟩

/-- FADE computes the same mask before and after a SAMPLE, so it writes the same output events. -/
theorem fadeOutputs_sampled (ts : Nat) (fbRaw refRaw : Sample) (s : State) :
    fadeOutputs ts (sampled fbRaw refRaw s) = fadeOutputs ts s := rfl

/-- The control cycle reads nothing that FADE writes (R113). -/
theorem sampleOutputs_faded (ts : Nat) (fbRaw refRaw : Sample) (s : State) :
    sampleOutputs fbRaw refRaw (faded ts s) = sampleOutputs fbRaw refRaw s := by
  rw [sampleOutputs, faded]
  split_ifs <;> rfl

/-- R178: SAMPLE and FADE write different registers, and neither reads what the other writes. -/
theorem sampled_faded (ts : Nat) (fbRaw refRaw : Sample) (s : State) :
    sampled fbRaw refRaw (faded ts s) = { faded ts (sampled fbRaw refRaw s) with
      outputs := (sampled fbRaw refRaw (faded ts s)).outputs } := by
  by_cases h : fadeMask ts s = s.fade.lastAppliedMask
  · rw [faded_same h, faded_same (s := sampled fbRaw refRaw s) h]
    rfl
  · rw [faded_new h, faded_new (s := sampled fbRaw refRaw s) h]
    rfl

theorem microFadeBegin_new (h : fadeTurn s = true) (hts : ts < 2 ^ s.cfg.tsBits)
    (hnew : fadeMask ts s ≠ s.fade.lastAppliedMask) :
    microFadeBegin ts s = .next (startGap (fadeMask ts s) s) := by
  rw [microFadeBegin, if_neg (Nat.not_le.mpr hts), if_pos h, if_neg hnew]

/-- A FADE up to its hold, a SAMPLE in the hold, and the rest of the FADE (R178). -/
theorem run_sample_inside_fade {w : Nat} (hs : AtRest s) (hturn : fadeTurn s = true)
    (hts : ts < 2 ^ s.cfg.tsBits) (hnew : fadeMask ts s ≠ s.fade.lastAppliedMask)
    (hd : decodeEvent s.cfg w = .ok (.sample fbRaw refRaw)) (rest : List Input) :
    core.run 3 (setInbox (.fadeBegin ts :: .event w :: .fadeEnd :: rest) s) =
      .next (setInbox rest (fadedAround ts fbRaw refRaw s)) := by
  have hgap : AtRest (startGap (fadeMask ts s) s) := ⟨hs.cfg_wf, hs.running, hs.idle, hs.quiet⟩
  have hafter : AtRest (sampled fbRaw refRaw (startGap (fadeMask ts s) s)) :=
    ⟨hs.cfg_wf, hs.running, rfl, rfl⟩
  have hstart : ∀ is, sampleMayStart (setInbox is (startGap (fadeMask ts s) s)) = true := fun _ =>
    (sampleMayStart_iff _).mpr ⟨hs.running, hs.idle⟩
  calc core.run 3 (setInbox (.fadeBegin ts :: .event w :: .fadeEnd :: rest) s)
      = core.run 2 (setInbox (.event w :: .fadeEnd :: rest) (startGap (fadeMask ts s) s)) :=
        hs.run_succ (microFadeBegin_new hturn hts hnew)
    _ = core.run 1 (setInbox (.fadeEnd :: rest) (sampled fbRaw refRaw (startGap (fadeMask ts s) s))) :=
        hgap.run_succ ((runInput_event (s := setInbox _ (startGap _ s)) hd).trans (exec_sample (hstart _)))
    _ = core.run 0 (setInbox rest (fadedAround ts fbRaw refRaw s)) := hafter.run_succ rfl
    _ = .next (setInbox rest (fadedAround ts fbRaw refRaw s)) := rfl

/-- The SAMPLE inside the hold gives the state of the SAMPLE before the FADE, but for the order of the output
events. -/
theorem fadedAround_eq (hnew : fadeMask ts s ≠ s.fade.lastAppliedMask) :
    fadedAround ts fbRaw refRaw s =
      { faded ts (sampled fbRaw refRaw s) with
        outputs := s.outputs ++ [.digitBus 0, .gapHold s.cfg.gapHold] ++ sampleOutputs fbRaw refRaw s
          ++ [.digitBus (faded ts (sampled fbRaw refRaw s)).outMask] } := by
  rw [faded_new (s := sampled fbRaw refRaw s) hnew]
  simp only [fadedAround, endGap, sampled_outputs]
  rfl

end

/-- Settles O25: both orders by the frames of the two operations, and the hold by the run through it. -/
theorem sampleAndFadeCommute : Obligations.SampleAndFadeCommute := by
  intro ts fbRaw refRaw s hturn
  obtain ⟨hboot, hidle, -⟩ := (fadeTurn_iff s).mp hturn
  refine ⟨sampled fbRaw refRaw s, faded ts (sampled fbRaw refRaw s), faded ts s,
    sampled fbRaw refRaw (faded ts s), sampleOutputs fbRaw refRaw s, fadeOutputs ts s,
    exec_sample ((sampleMayStart_iff s).mpr ⟨hboot, hidle⟩), exec_fade (fadeTurn_sampled hturn),
    exec_fade hturn, exec_sample (sampleMayStart_faded hturn), sampled_outputs fbRaw refRaw s,
    faded_outputs ts s, ?_, ?_, sampled_faded ts fbRaw refRaw s, ?_⟩
  · rw [faded_outputs, fadeOutputs_sampled, sampled_outputs, sampleOutputs]
  · rw [← sampleOutputs_faded ts, ← faded_outputs]
    exact sampled_outputs fbRaw refRaw (faded ts s)
  · intro w rest hw hquiet hts hd hnew
    refine ⟨by rw [fadeOutputs_new hnew, faded_outMask_new (s := sampled fbRaw refRaw s) hnew]; rfl, ?_⟩
    rw [run_sample_inside_fade ⟨hw, hboot, hidle, hquiet⟩ hturn hts hnew hd, fadedAround_eq hnew]
    rfl

end Sys2Proof.Machine
end

section
/-! The host commands one by one (spec/43_commands.md R203 to R210): each completes in every state, and what it
writes. -/

namespace Sys2Proof.Machine

open Sys2Proof

/-- Settles O13: a command word decodes to a command, and this is all a command can do. -/
theorem commandsWriteOnlyPollingRegisters : Obligations.CommandsWriteOnlyPollingRegisters :=
  fun w s => exec_command _ (decodeCommand_isCommand s.cfg.hasTune w) s

/-- Settles O6: the stored target is the `min` of R12 on the request and `MAX_TARGET`. -/
theorem settargetStoresTheClampedRequest : Obligations.SettargetStoresTheClampedRequest :=
  fun value s => ⟨_, rfl, minHalf_toNat value s.cfg.maxTarget, rfl⟩

/-- R170: the mask of a code is all-off for 0 and above 12, and the code's place in the table for 1 to 12. -/
theorem digitMask_off_and_on {c : Config} (hw : c.wf = true) (code : Nibble) :
    (code = 0 ∨ 12 < code.toNat → digitMask c code = 0) ∧
    (1 ≤ code.toNat ∧ code.toNat ≤ 12 → c.digitMasks[code.toNat - 1]? = some (digitMask c code)) :=
  ⟨digitMask_off c, fun ⟨h1, h12⟩ => digitMask_on hw h1 h12⟩

/-- Settles O7: `mask_a` takes the code's mask. -/
theorem digitSelectsOneMask : Obligations.DigitSelectsOneMask := by
  intro code s hw
  obtain ⟨hoff, hon⟩ := digitMask_off_and_on hw code
  exact ⟨_, rfl, rfl, hoff, hon, rfl⟩

/-- Settles O8: each mask takes its own code's mask. -/
theorem fadecfgStoresMasksAndThresholds : Obligations.FadecfgStoresMasksAndThresholds := by
  intro codeA codeB t0 t1 s hw
  obtain ⟨hoffA, honA⟩ := digitMask_off_and_on hw codeA
  obtain ⟨hoffB, honB⟩ := digitMask_off_and_on hw codeB
  exact ⟨_, rfl, hoffA, honA, hoffB, honB, rfl⟩

theorem exec_tune_of_hasTune {s : State} (h : s.cfg.hasTune = true) (per maxd : Byte) :
    exec (.tune per maxd) s = .next (writeCap maxd (writePeriod per s)) := if_pos h

theorem exec_tune_of_not_hasTune {s : State} (h : s.cfg.hasTune = false) (per maxd : Byte) :
    exec (.tune per maxd) s = .next s := if_neg (by simp [h])

/-- R208: the period is the operand, zero-extended. -/
theorem writePeriod_period_toNat (per : Byte) (s : State) : (writePeriod per s).period.toNat = per.toNat :=
  BitVec.toNat_setWidth_of_le (by decide)

/-- Settles O9, by whether opcode 4 is built in. -/
theorem tuneWritesPeriodAndCap : Obligations.TuneWritesPeriodAndCap := by
  intro per maxd s
  cases htune : s.cfg.hasTune with
  | true =>
    exact ⟨_, exec_tune_of_hasTune htune per maxd,
      fun _ => ⟨writePeriod_period_toNat per s, rfl, rfl⟩, nofun⟩
  | false => exact ⟨s, exec_tune_of_not_hasTune htune per maxd, nofun, fun _ => rfl⟩

/-- Settles O10: the port is the register, and the register takes the operand. -/
theorem auxStoresTheRawValue : Obligations.AuxStoresTheRawValue :=
  fun _ _ => ⟨_, rfl, rfl, rfl⟩

/-- R210: an IGNORED outcome writes nothing. -/
theorem exec_of_isIgnored {i : Instr} (h : i.isIgnored = true) (s : State) : exec i s = .next s := by
  cases i
  case settarget | digit | fadecfg | tune | aux | sample | poll | fade | reset => cases h
  all_goals rfl

/-- Without `HAS_TUNE`, opcode 4 names no command (R81). -/
theorem namesNoCommand_of_opcode_four {w : Word} (h : w.toNat % 16 = 4) :
    NamesNoCommand false (field w 0 4) := by
  rw [(opcode_eq_iff w 4).mpr h]
  exact .inr (.inr ⟨rfl, rfl⟩)

/-- Settles O11: the twelve are IGNORED outcomes, and so is what opcode 4 decodes to without `HAS_TUNE`. -/
theorem ignoredCommandsWriteNothing : Obligations.IgnoredCommandsWriteNothing := by
  constructor
  · intro i hi
    have hignored : i.isIgnored = true := by
      revert i
      decide
    exact ⟨hignored, exec_of_isIgnored hignored⟩
  · intro w s hw
    rw [decodeCommand_ignored (namesNoCommand_of_opcode_four hw)]
    exact exec_ignoredOf _ s

end Sys2Proof.Machine
end

section
/-! POLL and the status word (spec/43_commands.md R200 to R202, R211 to R213): what a POLL at its turn answers, and
what a SAMPLE between its micro-steps tears. -/

namespace Sys2Proof.Machine

open Sys2Proof

/-! ## A POLL at its turn -/

theorem applyFresh_cfg {fresh : Bool} {w : Word} {s u : State} (h : applyFresh fresh w s = .next u) :
    u.cfg = s.cfg := by
  obtain ⟨-, hx⟩ | ⟨-, rfl⟩ := applyFresh_next h
  · exact command_keeps_cfg (decodeCommand_isCommand _ _) hx
  · rfl

theorem applyFresh_polling {fresh : Bool} {w : Word} {s u : State} (h : applyFresh fresh w s = .next u) :
    u.polling = s.polling := by
  obtain ⟨v, hv, -, -, hframe⟩ := applyFresh_total fresh w s
  obtain rfl : v = u := by simpa [hv] using h
  rw [hframe]

/-- The status word that a POLL publishes is made of the two filters as its first micro-step found them. -/
theorem polled_status_of_applyFresh {fresh : Bool} {w : Word} {s u : State}
    (h : applyFresh fresh w s = .next u) :
    (polled u).status =
      statusWord s.cfg s.controller.filteredFeedback s.controller.filteredReference := by
  obtain ⟨hcontroller, -, -⟩ := applyFresh_sameControlRegisters h
  calc (polled u).status
      = statusWord u.cfg u.controller.filteredFeedback u.controller.filteredReference := rfl
    _ = _ := by rw [applyFresh_cfg h, hcontroller]

/-- Everything the two reads of a POLL change, where no micro-step was marked before them. -/
theorem polled_frame {u : State} (h : u.polling = .between) :
    polled u = { u with
      status := (polled u).status, outputs := u.outputs ++ [.statusWord (polled u).status],
      mainPhase := .fade } := by
  rw [h]
  rfl

/-- Settles O14: the first micro-step answers `u`, and the two reads after it publish. -/
theorem pollAppliesThenPublishes : Obligations.PollAppliesThenPublishes := by
  intro fresh word s hturn
  obtain ⟨-, -, -, hbetween⟩ := (pollTurn_iff s).mp hturn
  obtain ⟨u, hu, hfresh, hidle, -⟩ := applyFresh_total fresh word s
  refine ⟨u, polled u, hfresh, hidle, exec_poll hu hturn, polled_status_of_applyFresh hu, ?_⟩
  rw [← applyFresh_outputs hu]
  exact polled_frame ((applyFresh_polling hu).trans hbetween)

/-- Settles O54: a core at rest runs the first micro-step, which is the decoded command, marked done. -/
theorem stepRunsTheDecodedCommand : Obligations.StepRunsTheDecodedCommand := by
  intro word rest i s hw hinbox hd hturn hpending
  obtain ⟨hboot, hcontrol, -, -⟩ := (pollTurn_iff s).mp hturn
  have hs : AtRest s := ⟨hw, hboot, hcontrol, hpending⟩
  have hhead : s = setInbox (.pollApply true word :: rest) s := by
    rw [← hinbox]
    rfl
  obtain ⟨t, ht, hexec, -⟩ := applyFresh_total true word (setInbox rest s)
  cases hd
  refine ⟨t, hexec rfl, ?_⟩
  calc step s = step (setInbox (.pollApply true word :: rest) s) := congrArg step hhead
    _ = microApply true word (setInbox rest s) := hs.step_head _ _
    _ = .next (setPolling .applied t) := microApply_eq ht hturn

/-! ## The status word -/

theorem toNat_append_eq_add {m n : Nat} (x : BitVec m) (y : BitVec n) :
    (x ++ y).toNat = x.toNat * 2 ^ n + y.toNat := by
  rw [BitVec.toNat_append, ← Nat.shiftLeft_add_eq_or_of_lt y.isLt, Nat.shiftLeft_eq]

/-- R211, for any two values: the low ten bits of both post-shift values, at bits 22 and 12. -/
theorem statusWord_toNat (c : Config) (fb ref : Word) :
    (statusWord c fb ref).toNat =
      (postShift c ref).toNat % 2 ^ 10 * 2 ^ 22 + (postShift c fb).toNat % 2 ^ 10 * 2 ^ 12 := by
  simp only [statusWord, toNat_append_eq_add, BitVec.extractLsb'_toNat, Nat.shiftRight_zero,
    BitVec.reduceToNat]
  omega

/-- R213: a filtered value in its range has a post-shift value of at most ten bits. -/
theorem div_lt_of_inFilterRange {c : Config} {f : Word} (h : inFilterRange c f) : f.toNat / 2 ^ c.k < 2 ^ 10 := by
  obtain ⟨hlo, hhi⟩ := h
  have hnat := toNat_of_nonneg hlo
  have hle : f.toNat ≤ 1023 * 2 ^ c.k := by unfold Config.fMax at hhi; omega
  have hpos := Nat.two_pow_pos c.k
  exact Nat.div_lt_of_lt_mul (by omega)

theorem postShift_toNat_mod {c : Config} {f : Word} (h : inFilterRange c f) :
    (postShift c f).toNat % 2 ^ 10 = f.toNat / 2 ^ c.k := by
  rw [postShift_toNat c h.1, Nat.mod_eq_of_lt (div_lt_of_inFilterRange h)]

/-- Settles O15: neither post-shift value loses a bit, so the word is their sum and its fields are its digits. -/
theorem statusWordUnpacksToPostShiftValues : Obligations.StatusWordUnpacksToPostShiftValues := by
  intro c fb ref _ hfb href
  have hfbBits := div_lt_of_inFilterRange hfb
  have hrefBits := div_lt_of_inFilterRange href
  have hword : (statusWord c fb ref).toNat =
      ref.toNat / 2 ^ c.k * 2 ^ 22 + fb.toNat / 2 ^ c.k * 2 ^ 12 := by
    rw [statusWord_toNat, postShift_toNat_mod hfb, postShift_toNat_mod href]
  generalize ref.toNat / 2 ^ c.k = r at *
  generalize fb.toNat / 2 ^ c.k = f at *
  have hfield (lo len n : Nat) (h : (r * 2 ^ 22 + f * 2 ^ 12) / 2 ^ lo % 2 ^ len = n) :
      ((statusWord c fb ref).extractLsb' lo len).toNat = n :=
    (field_toNat _ lo len).trans (hword ▸ h)
  exact ⟨hword, hfield 12 10 f (by omega), hfield 22 10 r (by omega),
    BitVec.eq_of_toNat_eq (hfield 0 12 0 (by omega))⟩

/-! ## A SAMPLE between two micro-steps -/

section

variable {w : Nat} {fbRaw refRaw : Sample} {s : State}

theorem AtRest.after_sample (hs : AtRest s) (fbRaw refRaw : Sample) : AtRest (sampled fbRaw refRaw s) :=
  ⟨hs.cfg_wf, hs.running, rfl, rfl⟩

/-- A SAMPLE statement in front of a run at rest (R93). -/
theorem AtRest.run_sample (hs : AtRest s) (hd : decodeEvent s.cfg w = .ok (.sample fbRaw refRaw))
    (n : Nat) (rest : List Input) :
    core.run (n + 1) (setInbox (.event w :: rest) s) =
      core.run n (setInbox rest (sampled fbRaw refRaw s)) := by
  have hstart : sampleMayStart (setInbox rest s) = true :=
    (sampleMayStart_iff _).mpr ⟨hs.running, hs.idle⟩
  exact hs.run_succ ((runInput_event (s := setInbox rest s) hd).trans (exec_sample hstart))

theorem microRdfb_eq (hp : s.polling = .applied) : microRdfb s = .next (readFeedback s) := by
  simp only [microRdfb, hp]

/-- `POLL.rdfb`, a SAMPLE, `POLL.rdref`. -/
theorem run_sample_between_reads (hs : AtRest s) (hp : s.polling = .applied)
    (hd : decodeEvent s.cfg w = .ok (.sample fbRaw refRaw)) (rest : List Input) :
    core.run 3 (setInbox (.pollRdfb :: .event w :: .pollRdref :: rest) s) =
      .next (setInbox rest
        (publishStatus s.controller.filteredFeedback (sampled fbRaw refRaw (readFeedback s)))) := by
  have hread : AtRest (readFeedback s) := hs.setPolling _
  calc core.run 3 (setInbox (.pollRdfb :: .event w :: .pollRdref :: rest) s)
      = core.run 2 (setInbox (.event w :: .pollRdref :: rest) (readFeedback s)) := hs.run_succ (microRdfb_eq hp)
    _ = core.run 1 (setInbox (.pollRdref :: rest) (sampled fbRaw refRaw (readFeedback s))) :=
        hread.run_sample hd 1 _
    _ = core.run 0 _ := (hread.after_sample fbRaw refRaw).run_succ rfl

/-- `POLL.apply.period`, a SAMPLE, `POLL.apply.cap`. -/
theorem run_sample_inside_tune {word : Word} {per maxd : Byte} (hs : AtRest s) (hturn : pollTurn s = true)
    (htune : decodeCommand s.cfg.hasTune word = .tune per maxd)
    (hd : decodeEvent s.cfg w = .ok (.sample fbRaw refRaw)) (rest : List Input) :
    core.run 3 (setInbox (.pollApplyPeriod word :: .event w :: .pollApplyCap :: rest) s) =
      .next (setInbox rest (setPolling .applied (writeCap maxd
        (sampled fbRaw refRaw (setPolling (.periodWritten maxd) (writePeriod per s)))))) := by
  have hperiod : AtRest (setPolling (.periodWritten maxd) (writePeriod per s)) :=
    ⟨hs.cfg_wf, hs.running, hs.idle, hs.quiet⟩
  calc core.run 3 (setInbox (.pollApplyPeriod word :: .event w :: .pollApplyCap :: rest) s)
      = core.run 2 (setInbox (.event w :: .pollApplyCap :: rest)
          (setPolling (.periodWritten maxd) (writePeriod per s))) :=
        hs.run_succ (microApplyPeriod_eq hturn htune)
    _ = core.run 1 (setInbox (.pollApplyCap :: rest)
          (sampled fbRaw refRaw (setPolling (.periodWritten maxd) (writePeriod per s)))) :=
        hperiod.run_sample hd 1 _
    _ = core.run 0 _ := (hperiod.after_sample fbRaw refRaw).run_succ rfl

end

/-- Settles O18: the second read finds the reference that the SAMPLE wrote, the first read the old feedback. -/
theorem sampleBetweenReadsTearsTheStatusWord : Obligations.SampleBetweenReadsTearsTheStatusWord := by
  intro w fbRaw refRaw rest s hw hboot hcontrol hpending hp hd
  exact ⟨_, run_sample_between_reads ⟨hw, hboot, hcontrol, hpending⟩ hp hd rest, rfl, rfl, rfl⟩

/-- Settles O19: the SAMPLE's control cycle reads the period already written and the cap of before. -/
theorem sampleInsideTuneSeesTheTornPair : Obligations.SampleInsideTuneSeesTheTornPair := by
  intro word per maxd w fbRaw refRaw rest s hw hturn hpending htune hd
  obtain ⟨hboot, hcontrol, -, -⟩ := (pollTurn_iff s).mp hturn
  exact ⟨_, run_sample_inside_tune ⟨hw, hboot, hcontrol, hpending⟩ hturn htune hd rest, rfl, rfl,
    writePeriod_period_toNat per s, rfl, rfl⟩

end Sys2Proof.Machine
end

section
/-! RESET and the pending interrupt (spec/60_exceptions.md R244 to R247): what happens before the next input of the
polling context, and the run that serves one conversion. -/

namespace Sys2Proof.Machine

open Sys2Proof

/-! ## RESET -/

/-- Settles O46: the word 3 decodes to RESET, which happens at once. -/
theorem resetWinsOverEverything : Obligations.ResetWinsOverEverything := by
  intro rest s hw
  have hd : decodeEvent s.cfg 3 = .ok .reset := rfl
  refine ⟨resetOperation (setInbox rest s), ?_, rfl⟩
  calc step (setInbox (.event 3 :: rest) s)
      = runInput (.event 3) (setInbox rest s) := step_at_once hw (takenAtOnce_reset hd)
    _ = exec .reset (setInbox rest s) := runInput_event hd
    _ = .next (resetOperation (setInbox rest s)) := rfl

/-! ## Serving a pending conversion -/

/-- An input that waits leaves the step to the core's own work. -/
theorem step_of_waiting {s t : State} {inp : Input} {rest : List Input} (hw : s.cfg.wf = true)
    (hinbox : s.inbox = inp :: rest) (hwait : takenAtOnce s.cfg inp = false) (hwork : ownWork s = some t) :
    step s = .next t := by
  simp only [step, if_pos hw, advance, hinbox, hwait, hwork, Bool.false_eq_true, if_false]

/-- With boot over, no SAMPLE running and a conversion pending, the core's own work is to take the interrupt. -/
theorem ownWork_pending {s : State} (hboot : s.boot = .running) (hidle : s.control = .idle)
    (hpending : s.samplePending = true) : ownWork s = some (servePending s) := by
  simp [ownWork, hboot, hidle, hpending]

/-- Settles O43: taking the interrupt is work of the core's own, and the input waits for it. -/
theorem pendingInterruptIsTakenFirst : Obligations.PendingInterruptIsTakenFirst := by
  intro inp rest s hw hboot hidle hpending hresults hinbox hwait
  exact ⟨servePending s, servedPair s, step_of_waiting hw hinbox hwait (ownWork_pending hboot hidle hpending),
    servedPair_mem hresults, rfl, rfl⟩

/-- The state after a pending conversion is served on the pair that the interrupt was taken on. -/
def served (s : State) : State :=
  returnFromInterrupt (runControlLaw (servedPair s).1 (servedPair s).2 (servePending s))

/-- Serving is one SAMPLE on that pair; the model draws its free value once. -/
theorem served_eq_sampled (s : State) :
    served s = { sampled (servedPair s).1 (servedPair s).2 s with draws := s.draws + 1 } := rfl

/-- The interrupt, the control cycle, the return: three steps, for all of which the input waits. -/
theorem run_serving {s : State} {inp : Input} {rest : List Input} (hw : s.cfg.wf = true)
    (hboot : s.boot = .running) (hidle : s.control = .idle) (hpending : s.samplePending = true)
    (hinbox : s.inbox = inp :: rest) (hwait : takenAtOnce s.cfg inp = false) :
    core.run 3 s = .next (served s) :=
  calc core.run 3 s
      = core.run 2 (servePending s) :=
        run_of_step (step_of_waiting hw hinbox hwait (ownWork_pending hboot hidle hpending))
    _ = core.run 1 (runControlLaw (servedPair s).1 (servedPair s).2 (servePending s)) :=
        run_of_step (step_of_waiting hw hinbox hwait rfl)
    _ = core.run 0 (served s) := run_of_step (step_of_waiting hw hinbox hwait rfl)
    _ = .next (served s) := rfl

/-- Settles O44: the three steps are one SAMPLE, which keeps the polling context's registers and its input. -/
theorem interruptedPollingResumes : Obligations.InterruptedPollingResumes := by
  intro inp rest s hw hboot hidle hpending hresults hinbox hwait
  have hsample := exec_sample (fbRaw := (servedPair s).1) (refRaw := (servedPair s).2)
    ((sampleMayStart_iff s).mpr ⟨hboot, hidle⟩)
  have hpolling : samePollingRegisters s (sampled (servedPair s).1 (servedPair s).2 s) :=
    execSample_samePollingRegisters hsample
  exact ⟨served s, _, servedPair s, run_serving hw hboot hidle hpending hinbox hwait,
    servedPair_mem hresults, hsample, served_eq_sampled s, hinbox, hpolling⟩

end Sys2Proof.Machine
end

section
/-! The watchdog and the count of SAMPLEs (spec/60_exceptions.md R242, R243, R250, R252): what each operation adds
to the triggers that are served or still to be served, and when the watchdog's clock falls back. -/

namespace Sys2Proof.Machine

open Sys2Proof

/-! ## Clock units without a pet -/

theorem step_tick {s : State} (hw : s.cfg.wf = true) (rest : List Input) :
    step (setInbox (.tick :: rest) s) = .next (clockTick (setInbox rest s)) :=
  step_at_once hw rfl

theorem clockTick_timeout {s : State} (harmed : watchdogArmed s = true)
    (h : s.cfg.wdtTimeout ≤ s.sincePet + 1) : clockTick s = resetOperation s := by
  rw [clockTick, if_pos harmed, if_pos h]

theorem clockTick_counts {s : State} (harmed : watchdogArmed s = true)
    (h : s.sincePet + 1 < s.cfg.wdtTimeout) : clockTick s = { s with sincePet := s.sincePet + 1 } := by
  rw [clockTick, if_pos harmed, if_neg (Nat.not_le_of_lt h)]

/-- The last of the units that are left resets the device; each one before it is only counted. -/
theorem run_ticks {k : Nat} {rest : List Input} {s : State} (hw : s.cfg.wf = true)
    (harmed : watchdogArmed s = true) (h : s.sincePet + (k + 1) = s.cfg.wdtTimeout) :
    core.run (k + 1) (setInbox (List.replicate (k + 1) .tick ++ rest) s) =
      .next (resetOperation (setInbox rest s)) := by
  induction k generalizing s with
  | zero =>
    have hreset : clockTick (setInbox rest s) = resetOperation (setInbox rest s) :=
      clockTick_timeout harmed (Nat.le_of_eq h.symm)
    rw [← hreset]
    exact run_of_step (step_tick hw rest)
  | succ k ih =>
    have hcount (is : List Input) :
        clockTick (setInbox is s) = setInbox is { s with sincePet := s.sincePet + 1 } :=
      clockTick_counts harmed (by simp only [setInbox_sincePet, setInbox_cfg]; omega)
    calc core.run (k + 2) (setInbox (List.replicate (k + 2) .tick ++ rest) s)
        = core.run (k + 1) (clockTick (setInbox (List.replicate (k + 1) .tick ++ rest) s)) :=
          run_of_step (step_tick hw _)
      _ = core.run (k + 1)
            (setInbox (List.replicate (k + 1) .tick ++ rest) { s with sincePet := s.sincePet + 1 }) := by
          rw [hcount]
      _ = .next (resetOperation (setInbox rest { s with sincePet := s.sincePet + 1 })) :=
          ih hw harmed (by simp only; omega)
      _ = .next (resetOperation (setInbox rest s)) := rfl

/-- Settles O47, by induction on the units that are left. -/
theorem watchdogResetsAfterTimeout : Obligations.WatchdogResetsAfterTimeout := by
  intro n rest s hw harmed hpos hn
  obtain ⟨k, rfl⟩ := Nat.exists_eq_add_one_of_ne_zero (Nat.ne_of_gt hpos)
  exact run_ticks hw harmed hn

/-! ## Triggers accepted, and the watchdog's clock -/

/-- The triggers accepted so far: one for each SAMPLE that has ended, one if a SAMPLE runs, one if one is pending
(R243). -/
def acceptedTriggers (s : State) : Nat :=
  s.outputs.count .wdtPet + s.samplePending.toNat + if s.control = .idle then 0 else 1

/-- From `s` to `t` at most `n` triggers are accepted, no input is used up, and the watchdog's clock falls back
only by a pet or to a state before the end of boot. -/
structure AcceptsAtMost (n : Nat) (s t : State) : Prop where
  inbox : t.inbox = s.inbox
  triggers : acceptedTriggers t ≤ acceptedTriggers s + n
  clock : t.sincePet < s.sincePet →
    t.outputs.count .wdtPet = s.outputs.count .wdtPet + 1 ∨ t.boot ≠ .running

section

variable {s t : State}

theorem AcceptsAtMost.mono {m n : Nat} (h : AcceptsAtMost m s t) (hmn : m ≤ n) : AcceptsAtMost n s t :=
  ⟨h.inbox, h.triggers.trans (Nat.add_le_add_left hmn _), h.clock⟩

/-- Nothing happens to the interrupt, no pet is given, and the clock does not fall back. -/
theorem acceptsNone_of_same (hinbox : t.inbox = s.inbox) (hpending : t.samplePending = s.samplePending)
    (hcontrol : t.control = s.control) (hpets : t.outputs.count .wdtPet = s.outputs.count .wdtPet)
    (hclock : s.sincePet ≤ t.sincePet) : AcceptsAtMost 0 s t where
  inbox := hinbox
  triggers := by simp [acceptedTriggers, hpending, hcontrol, hpets]
  clock := fun h => absurd h (Nat.not_lt_of_le hclock)

theorem acceptsNone_refl (s : State) : AcceptsAtMost 0 s s :=
  acceptsNone_of_same rfl rfl rfl rfl le_rfl

/-! ### The polling context -/

/-- A POLL's first micro-step touches neither the interrupt nor the watchdog. -/
theorem applyFresh_service {fresh : Bool} {w : Word} (h : applyFresh fresh w s = .next t) :
    t.inbox = s.inbox ∧ t.samplePending = s.samplePending ∧ t.control = s.control ∧
      t.outputs = s.outputs ∧ t.sincePet = s.sincePet := by
  obtain ⟨u, hu, -, -, hframe⟩ := applyFresh_total fresh w s
  obtain rfl : u = t := by simpa [hu] using h
  rw [hframe]
  exact ⟨rfl, rfl, rfl, rfl, rfl⟩

theorem command_acceptsNone {i : Instr} (hi : i.isCommand = true) (h : exec i s = .next t) :
    AcceptsAtMost 0 s t := by
  obtain ⟨u, hu, hframe⟩ := exec_command i hi s
  obtain rfl : u = t := by simpa [hu] using h
  rw [hframe]
  exact acceptsNone_of_same rfl rfl rfl rfl le_rfl

theorem execPoll_acceptsNone {fresh : Bool} {w : Word} (h : execPoll fresh w s = .next t) :
    AcceptsAtMost 0 s t := by
  have hpets := execPoll_pets h
  obtain ⟨-, u, hu, rfl⟩ := execPoll_next h
  obtain ⟨hinbox, hpending, hcontrol, -, hclock⟩ := applyFresh_service hu
  exact acceptsNone_of_same hinbox hpending hcontrol hpets hclock.ge

theorem microApply_acceptsNone {fresh : Bool} {w : Word} (h : microApply fresh w s = .next t) :
    AcceptsAtMost 0 s t := by
  obtain ⟨-, u, hu, rfl⟩ := microApply_next h
  obtain ⟨hinbox, hpending, hcontrol, hout, hclock⟩ := applyFresh_service hu
  exact acceptsNone_of_same hinbox hpending hcontrol (congrArg _ hout) hclock.ge

theorem publishStatus_acceptsNone (fb : Word) (s : State) : AcceptsAtMost 0 s (publishStatus fb s) :=
  acceptsNone_of_same rfl rfl rfl (by simp) le_rfl

theorem execFade_acceptsNone {ts : Nat} (h : execFade ts s = .next t) : AcceptsAtMost 0 s t := by
  have hpets := execFade_pets h
  obtain ⟨-, ⟨-, rfl⟩ | ⟨-, rfl⟩⟩ := execFade_next h
  · exact acceptsNone_of_same rfl rfl rfl hpets le_rfl
  · exact acceptsNone_of_same rfl rfl rfl hpets le_rfl

theorem microFadeBegin_acceptsNone {ts : Nat} (h : microFadeBegin ts s = .next t) : AcceptsAtMost 0 s t := by
  obtain ⟨-, -, ⟨-, rfl⟩ | ⟨-, rfl⟩⟩ := microFadeBegin_next h
  · exact acceptsNone_of_same rfl rfl rfl rfl le_rfl
  · exact acceptsNone_of_same rfl rfl rfl (by simp) le_rfl

/-! ### RESET, boot and the control context -/

theorem resetOutputs_pets (c : Config) : (resetOutputs c).count .wdtPet = 0 := by
  simp [resetOutputs]

theorem returnFromInterrupt_pets (s : State) :
    (returnFromInterrupt s).outputs.count .wdtPet = s.outputs.count .wdtPet + 1 := by
  simp

/-- RESET drops a trigger that is pending or being served, and begins the boot sequence. -/
theorem resetOperation_acceptsNone (s : State) : AcceptsAtMost 0 s (resetOperation s) where
  inbox := rfl
  triggers := by
    simp only [acceptedTriggers, resetOperation_outputs, resetOperation_samplePending, resetOperation_control,
      List.count_append, resetOutputs_pets, Bool.toNat_false, if_true]
    omega
  clock := fun _ => .inr nofun

/-- Of the boot steps, the one that arms the watchdog sets its clock back (R275). -/
theorem bootStep_acceptsNone (s : State) : AcceptsAtMost 0 s (bootStep s) := by
  obtain ⟨-, h⟩ | ⟨-, h⟩ | ⟨-, h⟩ | ⟨-, h⟩ | ⟨-, h⟩ := bootStep_cases s <;> rw [h]
  case inr.inl => exact ⟨rfl, le_rfl, fun _ => .inr nofun⟩
  case inr.inr.inl => exact acceptsNone_of_same rfl rfl rfl (by simp) le_rfl
  all_goals exact acceptsNone_of_same rfl rfl rfl rfl le_rfl

/-- A pending trigger becomes a running SAMPLE, and a running SAMPLE one that has ended. -/
theorem ownWork_acceptsNone (h : ownWork s = some t) : AcceptsAtMost 0 s t := by
  obtain ⟨fb, ref, hc, rfl⟩ | ⟨hc, rfl⟩ | ⟨-, -, rfl⟩ | ⟨hc, -, hpending, rfl⟩ := ownWork_some h
  · exact ⟨rfl, by simp [acceptedTriggers, hc], fun hlt => absurd hlt (lt_irrefl _)⟩
  · have hpets := returnFromInterrupt_pets s
    refine ⟨rfl, ?_, fun _ => .inl hpets⟩
    simp only [acceptedTriggers, hpets, hc, returnFromInterrupt_samplePending, returnFromInterrupt_control,
      reduceCtorEq, if_true, if_false]
    omega
  · exact bootStep_acceptsNone s
  · exact ⟨rfl, by simp [acceptedTriggers, hc, hpending], fun hlt => absurd hlt (lt_irrefl _)⟩

theorem execSample_acceptsOne {fb ref : Sample} (h : execSample fb ref s = .next t) : AcceptsAtMost 1 s t := by
  have hpets := execSample_pets h
  obtain ⟨hstart, rfl⟩ | ⟨-, rfl⟩ := execSample_next h
  · rw [if_pos hstart] at hpets
    refine ⟨rfl, ?_, fun _ => .inl hpets⟩
    simp only [acceptedTriggers, hpets, returnFromInterrupt_samplePending, runControlLaw_samplePending,
      takeInterrupt_samplePending, returnFromInterrupt_control, Bool.toNat_false, if_true]
    omega
  · have hlost : AcceptsAtMost 0 s (loseTrigger fb ref s) := acceptsNone_of_same rfl rfl rfl rfl le_rfl
    exact hlost.mono (Nat.zero_le 1)

/-! ### The environment -/

/-- A conversion sets `sample_pending` where a SAMPLE could start, and in any case leaves its pair (R243). -/
theorem conversionCompletes_eq (fb ref : Sample) (s : State) :
    conversionCompletes fb ref s =
      { s with
        samplePending := s.samplePending || sampleMayStart s, results := s.results ++ [(fb, ref)] } := by
  unfold conversionCompletes loseTrigger triggerRecognised sampleMayStart
  cases interruptEnabled s <;> cases s.samplePending <;> cases s.control == .idle <;> rfl

theorem conversionCompletes_acceptsOne (fb ref : Sample) (s : State) :
    AcceptsAtMost 1 s (conversionCompletes fb ref s) := by
  rw [conversionCompletes_eq]
  refine ⟨rfl, ?_, fun hlt => absurd hlt (lt_irrefl _)⟩
  have hbit := (s.samplePending || sampleMayStart s).toNat_le
  simp only [acceptedTriggers]
  omega

theorem clockTick_acceptsNone (s : State) : AcceptsAtMost 0 s (clockTick s) := by
  obtain ⟨-, h⟩ | ⟨-, -, h⟩ | ⟨-, -, h⟩ := clockTick_cases s <;> rw [h]
  · exact acceptsNone_refl s
  · exact resetOperation_acceptsNone s
  · exact acceptsNone_of_same rfl rfl rfl rfl (Nat.le_succ _)

/-! ### Inputs and steps -/

/-- An event accepts a trigger only if it completes a conversion. -/
theorem exec_event_acceptsAtMost {w : Nat} {i : Instr} (hd : decodeEvent s.cfg w = .ok i)
    (h : exec i s = .next t) : AcceptsAtMost (completesConversion s.cfg (.event w)).toNat s t := by
  cases i
  case sample fb ref =>
    rw [(completesConversion_event hd).mpr ⟨fb, ref, rfl⟩]
    exact execSample_acceptsOne h
  case poll fresh word => exact (execPoll_acceptsNone h).mono (Nat.zero_le _)
  case fade ts => exact (execFade_acceptsNone h).mono (Nat.zero_le _)
  case reset =>
    cases h
    exact (resetOperation_acceptsNone s).mono (Nat.zero_le _)
  all_goals cases decodeEvent_not_command hd

theorem runInput_acceptsAtMost {inp : Input} (h : runInput inp s = .next t) :
    AcceptsAtMost (completesConversion s.cfg inp).toNat s t := by
  obtain ⟨w, i, rfl, hd, hx⟩ | ⟨fresh, w, rfl, hx⟩ | ⟨w, rfl, hx⟩ | ⟨rfl, hx⟩ | ⟨rfl, hx⟩ | ⟨rfl, hx⟩ |
    ⟨ts, rfl, hx⟩ | ⟨rfl, hx⟩ | ⟨fb, ref, rfl, rfl⟩ | ⟨rfl, rfl⟩ | ⟨rfl, rfl⟩ | ⟨rfl, rfl⟩ := runInput_next h
  · exact exec_event_acceptsAtMost hd hx
  · exact microApply_acceptsNone hx
  · obtain ⟨-, per, maxd, -, rfl⟩ := microApplyPeriod_next hx
    exact acceptsNone_of_same rfl rfl rfl rfl le_rfl
  · obtain ⟨maxd, -, rfl⟩ := microApplyCap_next hx
    exact acceptsNone_of_same rfl rfl rfl rfl le_rfl
  · obtain ⟨-, rfl⟩ := microRdfb_next hx
    exact acceptsNone_of_same rfl rfl rfl rfl le_rfl
  · obtain ⟨fb, -, rfl⟩ := microRdref_next hx
    exact publishStatus_acceptsNone fb s
  · exact microFadeBegin_acceptsNone hx
  · obtain ⟨m, -, rfl⟩ := microFadeEnd_next hx
    exact acceptsNone_of_same rfl rfl rfl (by simp) le_rfl
  · exact conversionCompletes_acceptsOne fb ref s
  · exact acceptsNone_of_same rfl rfl rfl rfl le_rfl
  · exact clockTick_acceptsNone s
  · cases hwork : ownWork s with
    | none => exact acceptsNone_refl s
    | some u => exact ownWork_acceptsNone hwork

/-- A step uses up no input and accepts no trigger, or uses up the head of the inbox and accepts a trigger only if
that completes a conversion. -/
theorem step_acceptsAtMost (h : step s = .next t) :
    AcceptsAtMost 0 s t ∨
    ∃ inp rest, s.inbox = inp :: rest ∧
      AcceptsAtMost (completesConversion s.cfg inp).toNat (setInbox rest s) t := by
  obtain ⟨-, ⟨-, -, rfl⟩ | hwork | ⟨inp, rest, hinbox, -, hrun⟩⟩ := step_next h
  · exact .inl (acceptsNone_refl _)
  · exact .inl (ownWork_acceptsNone hwork)
  · exact .inr ⟨inp, rest, hinbox, runInput_acceptsAtMost hrun⟩

end

/-- Settles O49: every operation meets the clause on the clock, whether or not it uses up an input. -/
theorem pollingNeverFeedsTheWatchdog : Obligations.PollingNeverFeedsTheWatchdog := by
  intro s t hstep hback
  obtain hnone | ⟨inp, rest, -, hinput⟩ := step_acceptsAtMost hstep
  · exact hnone.clock hback
  · exact hinput.clock hback

/-! ## SAMPLEs and switching periods -/

theorem step_conversion {s : State} (hw : s.cfg.wf = true) (fb ref : Sample) (rest : List Input) :
    step (setInbox (.conversion fb ref :: rest) s) = .next (conversionCompletes fb ref (setInbox rest s)) :=
  step_at_once hw rfl

theorem run_succ_next {n : Nat} {s t : State} (h : core.run (n + 1) s = .next t) :
    ∃ u, step s = .next u ∧ core.run n u = .next t := by
  obtain ⟨u, hu⟩ | ⟨e, he⟩ := outcome_next_or_refused (step s)
  · exact ⟨u, hu, (run_of_step hu).symm.trans h⟩
  · have he' : core.step s = .refused e := he
    simp only [Host.Core.run, he', reduceCtorEq] at h

/-- One input's premise (R276 (a)): a conversion uses up the period's, and only a boundary makes one due again. -/
theorem premises_after_input {c : Config} {due : Bool} {inp : Input} {rest : List Input}
    (h : environmentPremises c due (inp :: rest) = true) :
    ∃ due', environmentPremises c due' rest = true ∧
      (completesConversion c inp).toNat + due'.toNat ≤ due.toNat + [inp].count .periodBoundary := by
  rw [environmentPremises_cons, Bool.and_eq_true] at h
  obtain ⟨-, h⟩ := h
  cases hconv : completesConversion c inp with
  | true =>
    rw [hconv, if_pos rfl, Bool.and_eq_true] at h
    obtain ⟨rfl, hrest⟩ := h
    exact ⟨false, hrest, by simp⟩
  | false =>
    rw [hconv, if_neg Bool.false_ne_true] at h
    refine ⟨_, h, ?_⟩
    by_cases hb : inp = .periodBoundary
    · simp [hb]
    · simp [beq_false_of_ne hb]

/-- Along a run under the premises of R276, a trigger is accepted at most for the period that the run starts in, if
its conversion is still due, and for each period that begins. -/
theorem run_acceptedTriggers {n : Nat} {due : Bool} {s t : State}
    (hpremises : environmentPremises s.cfg due s.inbox = true) (hrun : core.run n s = .next t) :
    ∃ used, s.inbox = used ++ t.inbox ∧
      acceptedTriggers t ≤ acceptedTriggers s + due.toNat + used.count .periodBoundary := by
  induction n generalizing due s with
  | zero =>
    cases hrun
    exact ⟨[], rfl, by omega⟩
  | succ n ih =>
    obtain ⟨u, hstep, hrun⟩ := run_succ_next hrun
    obtain ⟨hcfg, -⟩ := step_extendsHistory hstep
    obtain ⟨hinbox, htriggers, -⟩ | ⟨inp, rest, hhead, hinbox, htriggers, -⟩ := step_acceptsAtMost hstep
    · rw [← hinbox, ← hcfg] at hpremises
      obtain ⟨used, hused, hle⟩ := ih hpremises hrun
      exact ⟨used, hinbox ▸ hused, by omega⟩
    · obtain rfl : u.inbox = rest := hinbox
      have htriggers : acceptedTriggers u ≤ acceptedTriggers s + (completesConversion s.cfg inp).toNat :=
        htriggers
      rw [hhead] at hpremises
      obtain ⟨due', hrest, hdue⟩ := premises_after_input hpremises
      rw [← hcfg] at hrest
      obtain ⟨used, hused, hle⟩ := ih hrest hrun
      refine ⟨[inp] ++ used, by rw [hhead, hused, List.append_assoc]; rfl, ?_⟩
      rw [List.count_append]
      omega

/-- Settles O42: what one conversion does, and the count of accepted triggers along the run, which covers the
SAMPLEs that end in it. -/
theorem conversionSetsPendingOrIsLost : Obligations.ConversionSetsPendingOrIsLost := by
  refine ⟨fun fb ref rest s hw => ?_, fun n due s t hpending hidle hpremises hrun => ?_⟩
  · refine ⟨_, step_conversion hw fb ref rest, ?_⟩
    rw [conversionCompletes_eq]
    exact ⟨rfl, rfl, rfl⟩
  · obtain ⟨used, hused, hle⟩ := run_acceptedTriggers hpremises hrun
    refine ⟨used, hused, ?_⟩
    simp only [acceptedTriggers, hpending, hidle, Bool.toNat_false, if_true] at hle
    omega

end Sys2Proof.Machine
end

section
/-! RESET and the hazards (spec/70_reset_and_hazards.md): the converter without a target, the limits after a TUNE, the
duty at a period boundary, and the boot sequence. -/

namespace Sys2Proof.Machine

open Sys2Proof

/-! ## A control cycle without a target -/

theorem compTargetNat_zero (c : Config) : compTargetNat c 0 = 0 := by
  unfold compTargetNat
  cases c.ctS3 <;> simp

theorem clampInt_le_max (x lo hi : Int) : clampInt x lo hi ≤ max x lo := by
  unfold clampInt
  split_ifs <;> omega

theorem dTermInt_none {c : Config} (h : c.dMode = .none) (e p : Int) : dTermInt c e p = 0 := by
  simp only [dTermInt, h]

/-- R274 (a): with no target the error is minus the feedback, so neither the proportional nor the integral term can
raise the plant output above 0. -/
theorem ExactCycle.off_of_target_zero {c : Config} {k k' : ControllerState} {period : Half} {dutyCap : Byte}
    {fbRaw refRaw : Sample} (hx : ExactCycle c k period dutyCap fbRaw refRaw k') (hinv : ControllerInv c k')
    (hmode : c.dMode = .none) (htarget : k.target = 0) (hmin : c.iMin ≤ 0) (hint : k.integral.toInt ≤ 0) :
    k'.compensatedTarget = 0 ∧ k'.previousError.toInt ≤ 0 ∧ k'.integral.toInt ≤ 0 ∧ k'.dutyCommand = 0 := by
  have hct : k'.compensatedTarget.toInt = 0 := by
    have hproduct : k'.filteredReference.toNat * k.target.toNat = 0 := by simp [htarget]
    rw [hx.compensated, hproduct, compTargetNat_zero, Nat.cast_zero]
  have herr : k'.previousError.toInt ≤ 0 := by
    have herror := hx.error
    have hfeedback := hinv.feedback_range.1
    omega
  have hint' : k'.integral.toInt ≤ 0 := by
    have hlow : c.iMin * 2 ^ c.k ≤ 0 := mul_nonpos_of_nonpos_of_nonneg hmin (by positivity)
    rw [hx.integral]
    exact (clampInt_le_max _ _ _).trans (max_le (by omega) hlow)
  have hduty : k'.dutyCommand.toInt ≤ 0 := by
    have hproportional : k'.previousError.toInt * 2 ^ c.pShift ≤ 0 :=
      mul_nonpos_of_nonpos_of_nonneg herr (by positivity)
    have hintegral : k'.integral.toInt / 2 ^ c.iShift ≤ 0 :=
      Int.ediv_nonpos_of_nonpos_of_neg hint' (by positivity)
    rw [hx.duty, dTermInt_none hmode]
    exact (clampInt_le_max _ _ _).trans (max_le (by omega) le_rfl)
  exact ⟨BitVec.eq_of_toInt_eq hct, herr, hint',
    BitVec.eq_of_toInt_eq (le_antisymm hduty hinv.duty_range.1)⟩

/-- Settles O39: under the invariant the control cycle is exact, and an exact cycle without a target stays off. -/
theorem converterStaysOffWithoutTarget : Obligations.ConverterStaysOffWithoutTarget := by
  intro fbRaw refRaw s hs hstart hmode htarget hmin hint
  obtain ⟨hexact, hinv⟩ :=
    controlCycleIsExactUnderConditionW s.cfg s.controller s.period s.dutyCap fbRaw refRaw hs.cfg_wf hs.controller
  obtain ⟨hct, herr, hint', hduty⟩ := hexact.off_of_target_zero hinv hmode htarget hmin hint
  refine ⟨sampled fbRaw refRaw s, exec_sample hstart, hct, herr, hint', hduty, ?_⟩
  rw [sampled_outputs, dutyPort, sampled_controller, hduty]
  rfl

/-! ## The limits after a TUNE -/

/-- R45 (b): a control cycle leaves the duty limit, and with it the duty, within the period and the cap it reads. -/
theorem controlLaw_duty_le_limits (c : Config) (k : ControllerState) (period : Half) (dutyCap : Byte)
    (fbRaw refRaw : Sample) :
    (controlLaw c k period dutyCap fbRaw refRaw).maxDuty.toInt ≤ min period.toNat dutyCap.toNat ∧
      (controlLaw c k period dutyCap fbRaw refRaw).dutyCommand.toInt ≤ min period.toNat dutyCap.toNat := by
  obtain ⟨-, hduty⟩ := dutyStaysWithinMaxDuty c k period dutyCap fbRaw refRaw
  have hmax := (maxDutyOf_bounds c (iir c k.filteredReference refRaw) period dutyCap).2
  exact ⟨hmax, hduty.trans hmax⟩

/-- Settles O41: the TUNE writes the period and the cap alone, and these are what the SAMPLE's control cycle reads. -/
theorem sampleAfterTuneObeysTheNewLimits : Obligations.SampleAfterTuneObeysTheNewLimits := by
  intro per maxd fbRaw refRaw s htune hstart
  have hlimits := controlLaw_duty_le_limits s.cfg s.controller (writePeriod per s).period maxd fbRaw refRaw
  rw [writePeriod_period_toNat] at hlimits
  exact ⟨writeCap maxd (writePeriod per s), _, exec_tune_of_hasTune htune per maxd, exec_sample hstart,
    rfl, rfl, hlimits⟩

/-! ## The duty at a period boundary -/

theorem step_periodBoundary {s : State} (hw : s.cfg.wf = true) (rest : List Input) :
    step (setInbox (.periodBoundary :: rest) s) = .next (periodEnds (setInbox rest s)) :=
  step_at_once hw rfl

/-- Settles O50: the SAMPLE writes the compare buffer, which the boundary copies to the compare in force. -/
theorem dutyGovernsTheNextPeriod : Obligations.DutyGovernsTheNextPeriod := by
  intro fbRaw refRaw rest s hw hstart
  have hboundary := step_periodBoundary (s := sampled fbRaw refRaw s) hw rest
  exact ⟨_, _, exec_sample hstart, rfl, hboundary, rfl, rfl⟩

/-! ## Boot -/

/-- Before boot ends, with no SAMPLE running, the core's own work is the boot sequence. -/
theorem ownWork_booting {s : State} (hboot : s.boot ≠ .running) (hidle : s.control = .idle) :
    ownWork s = some (bootStep s) := by
  simp only [ownWork, hidle, if_pos hboot]

/-- Nothing outside and no SAMPLE keeps the machine from its boot sequence. -/
structure Undisturbed (s : State) : Prop where
  cfg_wf : s.cfg.wf = true
  idle : s.control = .idle
  inbox_empty : s.inbox = []

theorem Undisturbed.after_bootStep {s : State} (hs : Undisturbed s) : Undisturbed (bootStep s) := by
  obtain ⟨-, h⟩ | ⟨-, h⟩ | ⟨-, h⟩ | ⟨-, h⟩ | ⟨-, h⟩ := bootStep_cases s <;> rw [h] <;>
    exact ⟨hs.cfg_wf, hs.idle, hs.inbox_empty⟩

/-- Before boot ends, a step that nothing disturbs is one step of the boot sequence (R275). -/
theorem Undisturbed.run_succ {s : State} (hs : Undisturbed s) (hboot : s.boot ≠ .running) (n : Nat) :
    core.run (n + 1) s = core.run n (bootStep s) := by
  apply run_of_step
  simp only [step, if_pos hs.cfg_wf, advance, hs.inbox_empty, ownWork_booting hboot hs.idle, Option.getD_some]

/-- Settles O52: each of the four steps is the next step of the boot sequence. -/
theorem bootStartsSamplingOnce : Obligations.BootStartsSamplingOnce := by
  intro s hw hboot hidle hinbox
  have hs : Undisturbed s := ⟨hw, hidle, hinbox⟩
  have hplatform : bootStep s = { s with boot := .platformReady } := by simp only [bootStep, hboot]
  have hs1 : Undisturbed { s with boot := .platformReady } := hplatform ▸ hs.after_bootStep
  have hrun1 (n : Nat) : core.run (n + 1) s = core.run n { s with boot := .platformReady } :=
    hplatform ▸ hs.run_succ (by simp [hboot]) n
  have hrun2 (n : Nat) : core.run (n + 1) { s with boot := .platformReady } =
      core.run n { s with boot := .watchdogArmed, sincePet := 0 } := hs1.run_succ nofun n
  refine ⟨?_, fun t ht => ?_⟩
  · calc core.run 4 s
        = core.run 3 { s with boot := .platformReady } := hrun1 3
      _ = core.run 2 { s with boot := .watchdogArmed, sincePet := 0 } := hrun2 2
      _ = core.run 1 { s with
            boot := .samplingStarted, sincePet := 0, outputs := s.outputs ++ [.sampleStart] } :=
          hs1.after_bootStep.run_succ nofun 1
      _ = core.run 0 { s with boot := .running, sincePet := 0, outputs := s.outputs ++ [.sampleStart] } :=
          hs1.after_bootStep.after_bootStep.run_succ nofun 0
  · rw [hrun1] at ht
    cases ht
    refine ⟨rfl, rfl, fun u hu => ?_⟩
    rw [hrun2] at hu
    cases hu
    exact ⟨rfl, rfl⟩

end Sys2Proof.Machine
end

section
/-! Encoding what an event word decodes to (spec/30_encoding.md R90; log entry 3): the fields the decoder reads, with
the bits it requires to be zero, are the whole word. -/

namespace Sys2Proof.Machine

open Sys2Proof

/-! ## What an accepted event word looks like -/

/-- The decoder reads `fresh` as a Boolean; below 2 that loses nothing. -/
theorem toNat_beq_one_of_le_one {n : Nat} (h : n ≤ 1) : (n == 1).toNat = n := by
  obtain rfl | rfl : n = 0 ∨ n = 1 := Nat.le_one_iff_eq_zero_or_eq_one.mp h <;> rfl

/-- What an event word holds when the decoder accepts it, for each of the four kinds (R90). -/
theorem decodeEvent_cases {c : Config} {w : Nat} {i : Instr} (h : decodeEvent c w = .ok i) :
    (∃ fbRaw refRaw, i = .sample fbRaw refRaw ∧ eventField w 0 8 = 0 ∧ w < 2 ^ 40 ∧
      eventField w 8 16 = fbRaw.toNat ∧ eventField w 24 16 = refRaw.toNat) ∨
    (∃ fresh word, i = .poll fresh word ∧ eventField w 0 8 = 1 ∧ w < 2 ^ 48 ∧
      eventField w 8 8 = fresh.toNat ∧ eventField w 16 32 = word.toNat) ∨
    (∃ ts, i = .fade ts ∧ eventField w 0 8 = 2 ∧ w / 2 ^ 8 = ts ∧ ts < 2 ^ c.tsBits) ∨
    (i = .reset ∧ eventField w 0 8 = 3 ∧ w < 2 ^ 8) := by
  unfold decodeEvent at h
  split at h
  case h_1 hkind =>
    split_ifs at h with hend hwide
    cases h
    refine .inl ⟨_, _, rfl, hkind, by omega, ?_, ?_⟩
    · rw [BitVec.toNat_ofNat, Nat.mod_eq_of_lt (by omega)]
    · rw [BitVec.toNat_ofNat, Nat.mod_eq_of_lt (by omega)]
  case h_2 hkind =>
    split_ifs at h with hend hbit
    cases h
    refine .inr (.inl ⟨_, _, rfl, hkind, by omega, (toNat_beq_one_of_le_one (by omega)).symm, ?_⟩)
    rw [BitVec.toNat_ofNat, eventField, Nat.mod_mod]
  case h_3 hkind =>
    split_ifs at h with hts
    cases h
    exact .inr (.inr (.inl ⟨_, rfl, hkind, rfl, hts⟩))
  case h_4 hkind =>
    split_ifs at h with hend
    cases h
    exact .inr (.inr (.inr ⟨rfl, hkind, by omega⟩))
  case h_5 => cases h

/-! ## The fields make the word -/

theorem encode_sample_of_fields {w : Nat} {fbRaw refRaw : Sample} (hkind : eventField w 0 8 = 0)
    (hend : w < 2 ^ 40) (hfb : eventField w 8 16 = fbRaw.toNat) (href : eventField w 24 16 = refRaw.toNat) :
    encode (.sample fbRaw refRaw) = .event w := by
  unfold eventField at hkind hfb href
  exact congrArg Encoding.event (by omega)

theorem encode_poll_of_fields {w : Nat} {fresh : Bool} {word : Word} (hkind : eventField w 0 8 = 1)
    (hend : w < 2 ^ 48) (hfresh : eventField w 8 8 = fresh.toNat) (hword : eventField w 16 32 = word.toNat) :
    encode (.poll fresh word) = .event w := by
  unfold eventField at hkind hfresh hword
  exact congrArg Encoding.event (by omega)

theorem encode_fade_of_fields {w ts : Nat} (hkind : eventField w 0 8 = 2) (hop : w / 2 ^ 8 = ts) :
    encode (.fade ts) = .event w := by
  unfold eventField at hkind
  exact congrArg Encoding.event (by omega)

theorem encode_reset_of_fields {w : Nat} (hkind : eventField w 0 8 = 3) (hend : w < 2 ^ 8) :
    encode .reset = .event w := by
  unfold eventField at hkind
  exact congrArg Encoding.event (by omega)

/-- Settles O2, kind by kind. -/
theorem acceptedEventWordsAreEncodings : Obligations.AcceptedEventWordsAreEncodings := by
  intro c w i h
  obtain ⟨fbRaw, refRaw, rfl, hkind, hend, hfb, href⟩ | ⟨fresh, word, rfl, hkind, hend, hfresh, hword⟩ |
    ⟨ts, rfl, hkind, hop, hts⟩ | ⟨rfl, hkind, hend⟩ := decodeEvent_cases h
  · exact ⟨encode_sample_of_fields hkind hend hfb href, rfl⟩
  · exact ⟨encode_poll_of_fields hkind hend hfresh hword, rfl⟩
  · exact ⟨encode_fade_of_fields hkind hop, decide_eq_true hts⟩
  · exact ⟨encode_reset_of_fields hkind hend, rfl⟩

end Sys2Proof.Machine
end
